-- ==== Sys2Proof/Word.lean ====
section
/-! DEFINITION. The bit strings of the machine (00_scope.md rule R5: bit strings are unsigned, numbered from bit 0, the
least significant). -/

namespace Sys2Proof

/-- A value of IFSR, of a general register, or of a 32-bit instruction (10_state.md rules R10, R28). -/
abbrev Word := BitVec 32

/-- One halfword of a T32 instruction (30_encoding.md rule R54). -/
abbrev Halfword := BitVec 16

/-- One control or status bit, as the spec writes it (10_state.md rule R27, type "bit"). -/
abbrev Bit := BitVec 1

end Sys2Proof
end

