-- ==== Sys2Proof/Syntax.lean ====
section
/-! DEFINITION. The instructions that reach IFSR, one constructor for each row of the opcode table, their words, and
the assembler's operands (30_encoding.md). -/

namespace Sys2Proof

/-- The direction of an access: the mnemonic gives it (30_encoding.md rule R52). -/
inductive Direction where
  | read   -- `MRC`
  | write  -- `MCR`
deriving DecidableEq, Repr

/-- A point of the System register encoding space (30_encoding.md rule R52). -/
structure EncodingPoint where
  coproc : BitVec 4
  opc1   : BitVec 3
  crn    : BitVec 4
  crm    : BitVec 4
  opc2   : BitVec 3
deriving DecidableEq, Repr

/-- The words of one instruction, in the instruction set the enclosing model supplies them in: one 32-bit word in A32
(30_encoding.md rule R53), two halfwords with `hw1` first in T32 (rule R54). -/
inductive InstrWords where
  | a32 (w : Word)
  | t32 (hw1 hw2 : Halfword)
deriving DecidableEq, Repr

/-- The instructions, one constructor for each row of the opcode table. `rt` is the 4-bit `Rt` field
(30_encoding.md rule R55). `cond` is the A32 condition field (rule R53); the T32 form has none (rule R54). -/
inductive Instr where
  /-- `MRC{<c>}{<q>} p15, {#}0, <Rt>, c5, c0, {#}1` in A32: read IFSR (40_sysreg_access.md rule R60). -/
  | mrcA32 (cond : BitVec 4) (rt : BitVec 4)
  /-- `MCR{<c>}{<q>} p15, {#}0, <Rt>, c5, c0, {#}1` in A32: write IFSR (40_sysreg_access.md rule R61). -/
  | mcrA32 (cond : BitVec 4) (rt : BitVec 4)
  /-- `MRC` in T32 (rule R60). -/
  | mrcT32 (rt : BitVec 4)
  /-- `MCR` in T32 (rule R61). -/
  | mcrT32 (rt : BitVec 4)
deriving DecidableEq, Repr

/-- The assembler's operands of an `MRC` (read) or `MCR` (write), in the order of the syntax of 30_encoding.md rule
R50. `<opc2>` is the optional operand. -/
structure Accessor where
  dir    : Direction
  coproc : BitVec 4
  opc1   : BitVec 3
  rt     : BitVec 4
  crn    : BitVec 4
  crm    : BitVec 4
  opc2   : Option (BitVec 3)
deriving DecidableEq, Repr

/-- Why the decoder answers "not IFSR" (30_encoding.md rule R56: a refusal to give a meaning, not a claim that the
words are illegal). -/
inductive DecodeReject where
  /-- The A32 `cond` field is 0b1111, "not a condition and selects a different instruction space" (rule R53). -/
  | unconditionalSpace
  /-- The fixed bits of the `MRC`/`MCR` format are not there (rules R53, R54). -/
  | notRegisterTransfer
  /-- An `MRC` or `MCR` at another point of the encoding space (rule R56). -/
  | otherRegister
deriving DecidableEq, Repr

end Sys2Proof
end

