-- ==== Sys2Proof/WellFormed.lean ====
section
/-! DEFINITION. Which instructions have words: the one check that the encoding asks for. -/

namespace Sys2Proof

/-- A 4-bit value that is a condition: any but 0b1111, which "is not a condition" (30_encoding.md rule R53). -/
def isCondition (cond : BitVec 4) : Bool := cond != 0b1111#4

/-- An instruction that the encoding admits. `Rt = 15` has words (95_test_vectors.md vector E11); it is the access
that refuses it (30_encoding.md rule R55). -/
def wellFormed : Instr → Bool
  | .mrcA32 cond _ => isCondition cond
  | .mcrA32 cond _ => isCondition cond
  | .mrcT32 _ => true
  | .mcrT32 _ => true

end Sys2Proof
end

