-- ==== Sys2Proof/Decode.lean ====
section
/-! DEFINITION. The decoder, the encoder and the assembler's choice of an instruction, from the layouts of
30_encoding.md rules R50 to R56. The bit layouts themselves are PRESUMED (rules R53, R54: "from general knowledge, not
in source"; notes/assumptions/18.md). -/

namespace Sys2Proof

/-- The five values that select IFSR (30_encoding.md rule R52). -/
def ifsrPoint : EncodingPoint :=
  { coproc := 0b1111#4, opc1 := 0b000#3, crn := 0b0101#4, crm := 0b0000#4, opc2 := 0b001#3 }

/-- The `L` bit: 1 is `MRC` (read), 0 is `MCR` (write) (30_encoding.md rule R53). -/
def directionBit : Direction → Bit
  | .read => 1#1
  | .write => 0#1

/-- Bits [23:0] of an `MRC` or `MCR`, the same in A32 and T32 (30_encoding.md rules R53, R54): opc1, L, CRn, Rt,
coproc, opc2, 1, CRm from the top. -/
def transferBody (dir : Direction) (p : EncodingPoint) (rt : BitVec 4) : BitVec 24 :=
  p.opc1 ++ directionBit dir ++ p.crn ++ rt ++ p.coproc ++ p.opc2 ++ 1#1 ++ p.crm

/-- The A32 word of an access to IFSR (30_encoding.md rule R53). -/
def a32Word (cond : BitVec 4) (dir : Direction) (rt : BitVec 4) : Word :=
  cond ++ 0b1110#4 ++ transferBody dir ifsrPoint rt

/-- The 32-bit value `hw1 : hw2` of the T32 form (30_encoding.md rule R54). -/
def t32Word (dir : Direction) (rt : BitVec 4) : Word :=
  0b11101110#8 ++ transferBody dir ifsrPoint rt

/-- A 32-bit value `hw1 : hw2` as its two halfwords (30_encoding.md rule R54). -/
def halfwords (w : Word) : InstrWords :=
  .t32 (w.extractLsb' 16 16) (w.extractLsb' 0 16)

/-- The point of the encoding space that bits [23:0] name. -/
def bodyPoint (b : BitVec 24) : EncodingPoint :=
  { coproc := b.extractLsb' 8 4, opc1 := b.extractLsb' 21 3, crn := b.extractLsb' 16 4,
    crm := b.extractLsb' 0 4, opc2 := b.extractLsb' 5 3 }

/-- The direction and the `Rt` field of an access to IFSR, or why bits [23:0] are none (30_encoding.md rules R52,
R55, R56). -/
def decodeBody (b : BitVec 24) : Except DecodeReject (Direction × BitVec 4) :=
  if b.extractLsb' 4 1 = 0#1 then .error .notRegisterTransfer
  else if bodyPoint b = ifsrPoint then
    .ok (if b.extractLsb' 20 1 = 1#1 then .read else .write, b.extractLsb' 12 4)
  else .error .otherRegister

/-- The A32 instruction of a condition, a direction and a register field. -/
def a32Instr (cond : BitVec 4) : Direction → BitVec 4 → Instr
  | .read, rt => .mrcA32 cond rt
  | .write, rt => .mcrA32 cond rt

/-- The T32 instruction of a direction and a register field. -/
def t32Instr : Direction → BitVec 4 → Instr
  | .read, rt => .mrcT32 rt
  | .write, rt => .mcrT32 rt

/-- The A32 decoder (30_encoding.md rule R53). -/
def decodeA32 (w : Word) : Except DecodeReject Instr :=
  if w.extractLsb' 24 4 = 0b1110#4 then
    if isCondition (w.extractLsb' 28 4) then
      match decodeBody (w.extractLsb' 0 24) with
      | .ok (dir, rt) => .ok (a32Instr (w.extractLsb' 28 4) dir rt)
      | .error e => .error e
    else .error .unconditionalSpace
  else .error .notRegisterTransfer

/-- The T32 decoder, on `hw1 : hw2` (30_encoding.md rule R54). -/
def decodeT32 (w : Word) : Except DecodeReject Instr :=
  if w.extractLsb' 24 8 = 0b11101110#8 then
    match decodeBody (w.extractLsb' 0 24) with
    | .ok (dir, rt) => .ok (t32Instr dir rt)
    | .error e => .error e
  else .error .notRegisterTransfer

/-- The decoder: the instruction the words are, or why they are "not IFSR" (30_encoding.md rule R56). -/
def decode : InstrWords → Except DecodeReject Instr
  | .a32 w => decodeA32 w
  | .t32 hw1 hw2 => decodeT32 (hw1 ++ hw2)

/-- The words of an instruction (30_encoding.md rules R53, R54). -/
def encode : Instr → InstrWords
  | .mrcA32 cond rt => .a32 (a32Word cond .read rt)
  | .mcrA32 cond rt => .a32 (a32Word cond .write rt)
  | .mrcT32 rt => halfwords (t32Word .read rt)
  | .mcrT32 rt => halfwords (t32Word .write rt)

/-- The words as one 32-bit number, numbered as spec/opcode_table.json numbers them: the A32 word, or `hw1 : hw2`. -/
def tableNumber : InstrWords → Word
  | .a32 w => w
  | .t32 hw1 hw2 => hw1 ++ hw2

/-- The mask of an instruction's row of spec/opcode_table.json (30_encoding.md rules R53, R54). -/
def tableMask : Instr → Word
  | .mrcA32 _ _ => 0x0FFF0FFF#32
  | .mcrA32 _ _ => 0x0FFF0FFF#32
  | .mrcT32 _ => 0xFFFF0FFF#32
  | .mcrT32 _ => 0xFFFF0FFF#32

/-- The match of an instruction's row of spec/opcode_table.json (30_encoding.md rules R53, R54). -/
def tableMatch : Instr → Word
  | .mrcA32 _ _ => 0x0E150F30#32
  | .mcrA32 _ _ => 0x0E050F30#32
  | .mrcT32 _ => 0xEE150F30#32
  | .mcrT32 _ => 0xEE050F30#32

/-- An operand that the syntax of 30_encoding.md rule R50 lets be omitted. PRESUMED (rule R52, "from general
knowledge"): an omitted `<opc2>` is 0, which names a different register. -/
def accessorPoint (a : Accessor) : EncodingPoint :=
  { coproc := a.coproc, opc1 := a.opc1, crn := a.crn, crm := a.crm, opc2 := a.opc2.getD 0#3 }

/-- The A32 instruction an assembler line stands for, where it names IFSR (30_encoding.md rules R50, R52, R53). -/
def assembleA32 (cond : BitVec 4) (a : Accessor) : Except DecodeReject Instr :=
  if accessorPoint a = ifsrPoint then
    if isCondition cond then .ok (a32Instr cond a.dir a.rt) else .error .unconditionalSpace
  else .error .otherRegister

/-- The T32 instruction an assembler line stands for, where it names IFSR (30_encoding.md rules R50, R52, R54). -/
def assembleT32 (a : Accessor) : Except DecodeReject Instr :=
  if accessorPoint a = ifsrPoint then .ok (t32Instr a.dir a.rt) else .error .otherRegister

/-- The `nbits` low bits of `w`, numbered as spec/opcode_table.json numbers them, as an instruction's words. DESIGN
CHOICE (notes/assumptions/19.md): a number whose top four bits are 0b1110 fits an A32 row and a T32 row of the table;
it is laid out as the T32 halfwords, whose row fixes more bits, and any other number as an A32 word. -/
def tableWords (nbits w : Nat) : InstrWords :=
  let v : Word := BitVec.ofNat 32 (w % 2 ^ nbits)
  if v.extractLsb' 28 4 = 0b1110#4 then halfwords v else .a32 v

/-- The instruction the decoder reads from a number of the opcode table, if any. -/
def decodeTableWord (nbits w : Nat) : Option Instr :=
  match decode (tableWords nbits w) with
  | .ok i => some i
  | .error _ => none

end Sys2Proof
end

