-- ==== Sys2Proof/Config.lean ====
section
/-! DEFINITION. What one implementation fixes (00_scope.md rule R4), and the free values (rules R6, R7). -/

namespace Sys2Proof

/-- The implementation parameters of 00_scope.md rule R4, all but `ExtClass` (a function: `Config.extClass`). The
spec gives a value for none of them (`syncRequired` has the default false). They stand in State as data that no step
changes, so that a statement about every state is one about every implementation. -/
structure Params where
  /-- `FEAT_AA32EL1`: the register is present. -/
  featAA32EL1 : Bool
  /-- `HaveEL(EL3)`. -/
  haveEL3 : Bool
  featAA32EL3 : Bool
  featAA64 : Bool
  featAA64EL2 : Bool
  featAA32EL2 : Bool
  featRAS : Bool
  /-- `EXT_CLASSIFIED`: the implementation classifies External aborts in ExT. -/
  extClassified : Bool
  /-- `HAS_LOCKDOWN_FAULT`. -/
  hasLockdownFault : Bool
  /-- `SYNC_REQUIRED`. -/
  syncRequired : Bool
  /-- `WRITABLE`: the bits a software write or a reset can set (10_state.md rule R26). -/
  writable : Word
deriving DecidableEq, Repr

/-- What the classification of an External abort depends on: `abort_info` of 60_exceptions.md rule R70, of which the
spec says nothing (rule R74). -/
abbrev AbortInfo := Nat

/-- `draw_32()` (00_scope.md rule R6): the n-th draw, under no law. -/
opaque Config.draw32 : Nat → Word

/-- `draw_1()` (00_scope.md rule R6): the n-th draw, under no law. -/
opaque Config.draw1 : Nat → Bit

/-- `ExtClass` (00_scope.md rule R4, 60_exceptions.md rule R74): IMPLEMENTATION DEFINED, uninterpreted. -/
opaque Config.extClass : AbortInfo → Bit

end Sys2Proof
end

