-- ==== Sys2Proof/Machine/State.lean ====
section
/-! DEFINITION. The state of the machine, the outcomes and the operations as data, the reasons a step can stop, and
the machine after reset. -/

namespace Sys2Proof.Machine

/-- The names of the instances (10_state.md rule R11). -/
inductive InstanceName where
  | ifsr
  | ifsrS
  | ifsrNS
deriving DecidableEq, Repr

/-- One value for each instance name. -/
structure Banked (α : Type) where
  ifsr   : α
  ifsrS  : α
  ifsrNS : α
deriving DecidableEq, Repr

/-- The Exception levels, values of `PSTATE.EL` (10_state.md rule R27). -/
inductive ExceptionLevel where
  | el0
  | el1
  | el2
  | el3
deriving DecidableEq, Repr

/-- The inputs of an access (10_state.md rule R27, all but the arguments of a recording). -/
structure Context where
  /-- `PSTATE.EL`. -/
  el : ExceptionLevel
  /-- `EL2Enabled()`. -/
  el2Enabled : Bool
  /-- `ELUsingAArch32(EL2)`. -/
  el2UsingAArch32 : Bool
  /-- `ELUsingAArch32(EL3)`. -/
  el3UsingAArch32 : Bool
  /-- `HSTR_EL2.T5`. -/
  hstrEL2T5 : Bit
  /-- `HSTR.T5`. -/
  hstrT5 : Bit
  /-- `HCR_EL2.TRVM`, tested for reads only. -/
  hcrEL2Trvm : Bit
  /-- `HCR.TRVM`, tested for reads only. -/
  hcrTrvm : Bit
  /-- `HCR_EL2.TVM`, tested for writes only. -/
  hcrEL2Tvm : Bit
  /-- `HCR.TVM`, tested for writes only. -/
  hcrTvm : Bit
  /-- `SCR.NS`, tested at EL3 only. -/
  scrNS : Bit
  /-- The result of the condition test of `{<c>}` (30_encoding.md rule R57). -/
  condPassed : Bool
deriving DecidableEq, Repr

/-- A lookup level (10_state.md rule R31). -/
inductive Level where
  | l1
  | l2
  | l3
deriving DecidableEq, Repr

/-- A lookup level of a Domain fault, which only the levels 1 and 2 have (10_state.md rule R31). -/
inductive DomainLevel where
  | l1
  | l2
deriving DecidableEq, Repr

/-- The 27 fault kinds (10_state.md rule R31). -/
inductive FaultKind where
  | addressSizeTTBR
  | addressSize (level : Level)
  | translation (level : Level)
  | accessFlag (level : Level)
  | permission (level : Level)
  | domain (level : DomainLevel)
  | syncExternal
  | syncExternalTTW (level : Level)
  | syncParity
  | syncParityTTW (level : Level)
  | pcAlignment
  | debug
  | tlbConflict
  | lockdown
deriving DecidableEq, Repr

/-- What the decode of a status code answers: a fault kind, or `Reserved`, a decode result only (10_state.md rules
R30, R31). -/
inductive DecodedKind where
  | reserved
  | kind (k : FaultKind)
deriving DecidableEq, Repr

/-- A stored value read in the short layout (10_state.md rule R30, `DecodeShort`). -/
structure ShortView where
  fnv  : Bit
  ext  : Bit
  lpae : Bit
  fs   : BitVec 5
  kind : DecodedKind
  res0 : Word
deriving DecidableEq, Repr

/-- A stored value read in the long layout (10_state.md rule R30, `DecodeLong`). -/
structure LongView where
  fnv    : Bit
  ext    : Bit
  lpae   : Bit
  status : BitVec 6
  kind   : DecodedKind
  res0   : Word
deriving DecidableEq, Repr

/-- The exceptions an access can end in, with the argument the pseudocode passes (40_sysreg_access.md rule R62). -/
inductive AccessException where
  /-- The source's `UNDEFINED` (60_exceptions.md rule R79). -/
  | undefined
  /-- `AArch64.AArch32SystemAccessTrap(EL2, ec)` (60_exceptions.md rule R81). -/
  | trapToEL2AArch64 (ec : BitVec 8)
  /-- `AArch32.TakeHypTrapException(ec)` (60_exceptions.md rule R80). -/
  | hypTrap (ec : BitVec 8)
deriving DecidableEq, Repr

/-- The outcome an access returns to the enclosing model (40_sysreg_access.md rule R62); the fifth outcome of that
rule, `Refused(reason)`, is the machine's refusal (`Refusal`). -/
inductive AccessOutcome where
  | ok
  | exception (e : AccessException)
deriving DecidableEq, Repr

/-- What the access rules decide (40_sysreg_access.md rule R64, `AccessDecision`). -/
inductive AccessDecision where
  | exception (e : AccessException)
  | access (inst : InstanceName)
deriving DecidableEq, Repr

/-- The kinds of reset: the one the source names and every other, treated alike (70_reset_and_hazards.md rules R90,
R91). -/
inductive ResetKind where
  | warm
  | other
deriving DecidableEq, Repr

/-- The arguments of `RecordInstructionFault` (60_exceptions.md rule R70). -/
structure FaultReport where
  target    : InstanceName
  eae       : Bit
  fault     : FaultKind
  ifarValid : Bool
  abortInfo : AbortInfo
deriving DecidableEq, Repr

/-- The operations the enclosing model issues (00_scope.md section 4) and the environment steps it takes between them
(95_test_vectors.md Part 3). -/
inductive Request where
  /-- The words of an instruction the PE executes. -/
  | instruction (w : InstrWords)
  /-- The inputs of the accesses that follow (10_state.md rule R27). -/
  | context (c : Context)
  /-- A value the PE's other instructions put in `R[t]` (10_state.md rule R28). -/
  | register (t : Fin 15) (v : Word)
  /-- `RecordInstructionFault` (60_exceptions.md rule R70). -/
  | recordFault (r : FaultReport)
  /-- `WarmReset` or another reset (70_reset_and_hazards.md rules R90, R91). -/
  | reset (kind : ResetKind)
  /-- A context synchronisation event (20_memory.md rule R45). -/
  | contextSync
deriving DecidableEq, Repr

/-- Why the machine stops with a fault. No step raises one: the exceptions of an access are outcomes handed to the
enclosing model, with a next state (40_sysreg_access.md rules R62, R63), and the component has no memory to fault on
(20_memory.md rule R40). -/
inductive Fault where
deriving DecidableEq, Repr

/-- Why an operation has no meaning. Each marks an input for which no source says what the hardware does
(40_sysreg_access.md rule R62), and errs toward unprovable (safe). -/
inductive Refusal where
  /-- An arm of `exec` that has no meaning yet. None is left. Safe. -/
  | notModelled (mnemonic : String)
  /-- `Refused(RtIs15)`: an access with `t = 15` (30_encoding.md rule R55). Raised by the accesses. Safe. -/
  | rtIs15
  /-- `Refused(NoSuchInstance)`: an access or a recording that names an instance the implementation does not have
  (10_state.md rule R12, 60_exceptions.md rule R70). Safe. -/
  | noSuchInstance
  /-- `Refused(ConditionFailedOnNonOkAccess)` (30_encoding.md rule R57). Raised by the accesses. Safe. -/
  | conditionFailedOnNonOkAccess
  /-- A recording when `FEAT_AA32EL1` is not implemented (10_state.md rule R13, 60_exceptions.md rule R70). Safe. -/
  | registerAbsent
  /-- A recording of a fault that has no code in the layout (60_exceptions.md rule R77). Safe. -/
  | noCodeInLayout
  /-- Words that are not an accessor of IFSR (30_encoding.md rule R56). Raised by the step. Safe. -/
  | notIFSR (why : DecodeReject)
deriving DecidableEq, Repr

/-- The machine's state. `cells` is all the state the component has (00_scope.md section 4; 10_state.md rules R10,
R11); `regs` are `R[0]` to `R[14]` (rule R28); `params` and `ctx` are the parameters and inputs its operations take
(00_scope.md rule R4, 10_state.md rule R27); the other four are the model's own (INVENTORY.md). -/
structure State where
  /-- The implementation parameters: no step changes them. -/
  params : Params
  /-- The inputs of an access. -/
  ctx : Context
  /-- The general registers `R[0]` to `R[14]`: one set of fifteen, banked by no level, mode or Security state (DESIGN
  CHOICE, unsafe: notes/assumptions/33.md). -/
  regs : Vector Word 15
  /-- The cells of the instances. -/
  cells : Banked Word
  /-- The model's own: the value last stored in each instance by software with no context synchronisation event since
  (20_memory.md rule R45). -/
  unsynced : Banked (Option Word)
  /-- The model's own: what the last access returned to the enclosing model (40_sysreg_access.md rule R62). -/
  outcome : Option AccessOutcome
  /-- The model's own: how many free values have been drawn (00_scope.md rule R6). -/
  draws : Nat
  /-- The model's own: the operations issued and not yet performed, oldest first (20_memory.md rule R45). -/
  inbox : List Request
deriving DecidableEq, Repr

/-- The parameters of the machine after reset. DESIGN CHOICE, unsafe (notes/assumptions/2.md): every feature but
`FEAT_RAS`, all 32 bits stored; `SYNC_REQUIRED` has the spec's default (00_scope.md rule R4). -/
def resetParams : Params :=
  { featAA32EL1 := true, haveEL3 := true, featAA32EL3 := true, featAA64 := true, featAA64EL2 := true,
    featAA32EL2 := true, featRAS := false, extClassified := true, hasLockdownFault := true, syncRequired := false,
    writable := 0xFFFFFFFF#32 }

/-- The inputs after reset. PRESUMED and DESIGN CHOICE, unsafe (notes/assumptions/3.md): the highest level, EL3, in
AArch32 and Secure, with no trap. -/
def resetContext : Context :=
  { el := .el3, el2Enabled := false, el2UsingAArch32 := true, el3UsingAArch32 := true, hstrEL2T5 := 0#1,
    hstrT5 := 0#1, hcrEL2Trvm := 0#1, hcrTrvm := 0#1, hcrEL2Tvm := 0#1, hcrTvm := 0#1, scrNS := 0#1,
    condPassed := true }

/-- The machine after reset: every cell holds `draw_32() AND WRITABLE`, a separate draw for each
(70_reset_and_hazards.md rule R90). The general registers hold 0 (DESIGN CHOICE, unsafe: notes/assumptions/4.md) and no
operation has been issued. -/
def State.reset : State :=
  { params := resetParams, ctx := resetContext, regs := Vector.replicate 15 0#32,
    cells :=
      { ifsr := Config.draw32 0 &&& resetParams.writable, ifsrS := Config.draw32 1 &&& resetParams.writable,
        ifsrNS := Config.draw32 2 &&& resetParams.writable },
    unsynced := { ifsr := none, ifsrS := none, ifsrNS := none }, outcome := none, draws := 3, inbox := [] }

end Sys2Proof.Machine
end

