-- ==== Sys2Proof/Machine/Ops.lean ====
section
/-! DEFINITION. The shared operations over the instances, the general registers, the free values, the outcomes and
the queue of issued operations. -/

namespace Sys2Proof.Machine

/-! ### Instances -/

/-- The value under an instance name. -/
def bankGet {α : Type} (b : Banked α) : InstanceName → α
  | .ifsr => b.ifsr
  | .ifsrS => b.ifsrS
  | .ifsrNS => b.ifsrNS

/-- The same values with one replaced: the instances are separate (10_state.md rule R14, 60_exceptions.md R84). -/
def bankSet {α : Type} (b : Banked α) (n : InstanceName) (v : α) : Banked α :=
  match n with
  | .ifsr => { b with ifsr := v }
  | .ifsrS => { b with ifsrS := v }
  | .ifsrNS => { b with ifsrNS := v }

/-- "exists when", over the parameters (10_state.md rule R11). -/
def existsWhen (p : Params) : InstanceName → Bool
  | .ifsr => !p.haveEL3 || p.featAA64
  | .ifsrS => p.featAA32EL3
  | .ifsrNS => p.featAA32EL3

/-- `Exists(inst)`: the formula of 10_state.md rule R11 in an implementation that has the register at all (rule R13).
DEDUCED: notes/assumptions/26.md. -/
def instanceExists (p : Params) (n : InstanceName) : Bool := p.featAA32EL1 && existsWhen p n

/-- The constraint on `WRITABLE` (00_scope.md rule R4): bits 16, 10, 9 and 5:0 always, bit 12 under a
classification of External aborts. -/
def admissible (p : Params) : Bool :=
  (p.writable &&& 0x0001063F#32 == 0x0001063F#32) && (!p.extClassified || p.writable.getLsbD 12)

/-- All 32 bits of an instance (20_memory.md rule R41). -/
def cellRead (n : InstanceName) (s : State) : Word := bankGet s.cells n

/-- Replaces all 32 bits of an instance and touches nothing else. -/
def cellWrite (n : InstanceName) (v : Word) (s : State) : State := { s with cells := bankSet s.cells n v }

/-- What a software write stores of a value: `v AND WRITABLE` (10_state.md rule R26). -/
def storedValue (p : Params) (v : Word) : Word := v &&& p.writable

/-- A software write: the instance takes the stored value, which a recording before the next context synchronisation
event may leave in place (20_memory.md rule R45). -/
def softwareWrite (n : InstanceName) (v : Word) (s : State) : State :=
  { cellWrite n (storedValue s.params v) s with unsynced := bankSet s.unsynced n (some (storedValue s.params v)) }

/-- `IFSR32_EL2`: the cell `IFSR` under its AArch64 name, bit `i` to bit `i` (10_state.md rule R14). -/
def ifsr32EL2 (s : State) : Word := cellRead .ifsr s

/-! ### General registers (10_state.md rule R28)

R28 says that banking is in no source. One unbanked set is the model's (DESIGN CHOICE, unsafe:
notes/assumptions/33.md). -/

/-- `R[t]`. -/
def regRead (t : Fin 15) (s : State) : Word := s.regs[t]

/-- `R[t] <- v`. -/
def regWrite (t : Fin 15) (v : Word) (s : State) : State := { s with regs := s.regs.set t v }

/-! ### Free values (00_scope.md rules R6, R7) -/

/-- `draw_32()`: a fresh value under no law. -/
def drawWord (s : State) : Word × State := (Config.draw32 s.draws, { s with draws := s.draws + 1 })

/-- `draw_1()`: a fresh bit under no law. -/
def drawBit (s : State) : Bit × State := (Config.draw1 s.draws, { s with draws := s.draws + 1 })

/-! ### Outcomes of an access (40_sysreg_access.md rule R62) -/

/-- The access returns `Ok`. -/
def completeAccess (s : State) : State := { s with outcome := some .ok }

/-- Taking an exception, as far as the spec describes it: the outcome is returned to the enclosing model and neither
an instance nor `R[t]` changes (40_sysreg_access.md rules R62, R63). No source says which register saves a program
counter or a status, or where control goes (60_exceptions.md rules R79 to R81; notes/assumptions/7.md). No return from
an exception takes part in this register (60_exceptions.md rule R86). -/
def takeException (e : AccessException) (s : State) : State := { s with outcome := some (.exception e) }

/-! ### Operations of the enclosing model -/

/-- The oldest issued operation and the state without it: operations happen one at a time in issue order
(20_memory.md rule R45). -/
def takeRequest (s : State) : Option (Request × State) :=
  match s.inbox with
  | [] => none
  | r :: rest => some (r, { s with inbox := rest })

/-- Issues an operation ahead of those waiting. -/
def issueFirst (r : Request) (s : State) : State := { s with inbox := r :: s.inbox }

/-- New inputs for the accesses that follow (10_state.md rule R27). The general registers keep their values whatever
level or Security state the new inputs name (DESIGN CHOICE, unsafe: notes/assumptions/33.md). -/
def setContext (c : Context) (s : State) : State := { s with ctx := c }

/-- A context synchronisation event: no software write is unsynchronised after it (20_memory.md rule R45). -/
def synchronise (s : State) : State := { s with unsynced := { ifsr := none, ifsrS := none, ifsrNS := none } }

end Sys2Proof.Machine
end

