-- ==== Sys2Proof/Machine/Flags.lean ====
section
/-! DEFINITION. The condition of an access. The component has no flags and writes none (10_state.md rule R37); the
result of the condition test is the input `cond_passed` (30_encoding.md rule R57). -/

namespace Sys2Proof.Machine

/-- An access that would be `Ok`: under a failed condition it returns `Ok` and changes nothing (30_encoding.md rule
R57). -/
def okUnderCondition (effect : State → State) (s : State) : Host.Outcome State Fault Refusal :=
  .next (completeAccess (if s.ctx.condPassed then effect s else s))

/-- An access that would end in an exception: under a failed condition it is
`Refused(ConditionFailedOnNonOkAccess)` (30_encoding.md rule R57). -/
def exceptionUnderCondition (e : AccessException) (s : State) : Host.Outcome State Fault Refusal :=
  if s.ctx.condPassed then .next (takeException e s) else .refused .conditionFailedOnNonOkAccess

end Sys2Proof.Machine
end

