-- ==== Sys2Proof/Machine/Operands.lean ====
section
/-! DEFINITION. The one operand of an accessor: the general register `<Rt>`. -/

namespace Sys2Proof.Machine

/-- The register that an `Rt` field names: `t` from 0 to 14 is admitted and 15 is refused (30_encoding.md rule R55,
92_eei_decisions.md D18). -/
def generalRegister (rt : BitVec 4) : Option (Fin 15) :=
  if h : rt.toNat < 15 then some ⟨rt.toNat, h⟩ else none

end Sys2Proof.Machine
end

