-- ==== Sys2Proof/Machine/SysRegAccess.lean ====
section
/-! DEFINITION. The System register access instructions MRC and MCR for IFSR (40_sysreg_access.md). -/

namespace Sys2Proof.Machine

/-- The AArch64 EL2 control tested besides `HSTR_EL2.T5`: `TRVM` for a read, `TVM` for a write
(40_sysreg_access.md rules R60, R61). -/
def vmControl64 (c : Context) : Direction → Bit
  | .read => c.hcrEL2Trvm
  | .write => c.hcrEL2Tvm

/-- The AArch32 EL2 control tested besides `HSTR.T5`: `TRVM` for a read, `TVM` for a write (40_sysreg_access.md rules
R60, R61). -/
def vmControl32 (c : Context) : Direction → Bit
  | .read => c.hcrTrvm
  | .write => c.hcrTvm

/-- The argument of both trap calls (40_sysreg_access.md rules R60, R61). -/
def trapArgument : BitVec 8 := 0x03#8

/-- The EL1 arm of the pseudocode, its six tests in the source's order (40_sysreg_access.md rules R60, R61;
60_exceptions.md rule R82). -/
def decisionAtEL1 (p : Params) (c : Context) (dir : Direction) : AccessDecision :=
  if c.el2Enabled && p.featAA64EL2 && !c.el2UsingAArch32 && c.hstrEL2T5 == 1#1 then
    .exception (.trapToEL2AArch64 trapArgument)
  else if c.el2Enabled && p.featAA32EL2 && c.el2UsingAArch32 && c.hstrT5 == 1#1 then
    .exception (.hypTrap trapArgument)
  else if c.el2Enabled && p.featAA64EL2 && !c.el2UsingAArch32 && vmControl64 c dir == 1#1 then
    .exception (.trapToEL2AArch64 trapArgument)
  else if c.el2Enabled && p.featAA32EL2 && c.el2UsingAArch32 && vmControl32 c dir == 1#1 then
    .exception (.hypTrap trapArgument)
  else if p.haveEL3 && p.featAA32EL3 && c.el3UsingAArch32 then .access .ifsrNS
  else .access .ifsr

/-- The EL2 arm of the pseudocode: no trap control is tested (40_sysreg_access.md rules R60, R61). -/
def decisionAtEL2 (p : Params) (c : Context) : AccessDecision :=
  if p.haveEL3 && p.featAA32EL3 && c.el3UsingAArch32 then .access .ifsrNS else .access .ifsr

/-- The EL3 arm of the pseudocode: `SCR.NS` alone chooses (40_sysreg_access.md rules R60, R61). -/
def decisionAtEL3 (c : Context) : AccessDecision :=
  if c.scrNS = 0#1 then .access .ifsrS else .access .ifsrNS

/-- What the pseudocode of an access decides, arm by arm as the source writes it (40_sysreg_access.md rules R60,
R61). The two pseudocodes differ only in `TRVM` against `TVM`. -/
def accessDecision (p : Params) (c : Context) (dir : Direction) : AccessDecision :=
  if !p.featAA32EL1 then .exception .undefined
  else
    match c.el with
    | .el0 => .exception .undefined
    | .el1 => decisionAtEL1 p c dir
    | .el2 => decisionAtEL2 p c
    | .el3 => decisionAtEL3 c

/-- `el3is32` (40_sysreg_access.md rule R64). -/
def el3is32 (p : Params) (c : Context) : Bool := p.haveEL3 && p.featAA32EL3 && c.el3UsingAArch32

/-- `trap64` (40_sysreg_access.md rule R64). -/
def trap64 (p : Params) (c : Context) (dir : Direction) : Bool :=
  c.el2Enabled && p.featAA64EL2 && !c.el2UsingAArch32 && (c.hstrEL2T5 == 1#1 || vmControl64 c dir == 1#1)

/-- `trap32` (40_sysreg_access.md rule R64). -/
def trap32 (p : Params) (c : Context) (dir : Direction) : Bool :=
  c.el2Enabled && p.featAA32EL2 && c.el2UsingAArch32 && (c.hstrT5 == 1#1 || vmControl32 c dir == 1#1)

/-- The complete read operation (40_sysreg_access.md rules R60, R64, `ReadIFSR`). -/
def readIFSR (rt : BitVec 4) (s : State) : Host.Outcome State Fault Refusal :=
  match generalRegister rt with
  | none => .refused .rtIs15
  | some t =>
    match accessDecision s.params s.ctx .read with
    | .exception e => exceptionUnderCondition e s
    | .access inst =>
      if instanceExists s.params inst then okUnderCondition (fun s => regWrite t (cellRead inst s) s) s
      else .refused .noSuchInstance

/-- The complete write operation (40_sysreg_access.md rules R61, R64, `WriteIFSR`). -/
def writeIFSR (rt : BitVec 4) (s : State) : Host.Outcome State Fault Refusal :=
  match generalRegister rt with
  | none => .refused .rtIs15
  | some t =>
    match accessDecision s.params s.ctx .write with
    | .exception e => exceptionUnderCondition e s
    | .access inst =>
      if instanceExists s.params inst then okUnderCondition (fun s => softwareWrite inst (regRead t s) s) s
      else .refused .noSuchInstance

/-! ### The meanings, one for each row of the opcode table -/

/-- `MRC` in A32 (40_sysreg_access.md rule R60). The `cond` field has been tested outside the component: its result is
the input `cond_passed` (30_encoding.md rule R57; notes/assumptions/15.md). -/
def execMrcA32 (_cond rt : BitVec 4) (s : State) : Host.Outcome State Fault Refusal := readIFSR rt s

/-- `MCR` in A32 (40_sysreg_access.md rule R61); `cond` as for `execMrcA32`. -/
def execMcrA32 (_cond rt : BitVec 4) (s : State) : Host.Outcome State Fault Refusal := writeIFSR rt s

/-- `MRC` in T32 (40_sysreg_access.md rule R60). -/
def execMrcT32 (rt : BitVec 4) (s : State) : Host.Outcome State Fault Refusal := readIFSR rt s

/-- `MCR` in T32 (40_sysreg_access.md rule R61). -/
def execMcrT32 (rt : BitVec 4) (s : State) : Host.Outcome State Fault Refusal := writeIFSR rt s

end Sys2Proof.Machine
end

