-- ==== Sys2Proof/Machine/FaultStatus.lean ====
section
/-! DEFINITION. The two layouts of IFSR: the status codes, the reserved bits, what the hardware composes for a fault,
and what a reader makes of a stored value (10_state.md rules R15 to R31, 60_exceptions.md rules R70 to R77). -/

namespace Sys2Proof.Machine

/-! ### The code tables -/

/-- FS, bits [10, 3:0] of the short layout, in the source's order (10_state.md rule R19). -/
def shortTable : List (BitVec 5 × FaultKind) :=
  [(0b00001#5, .pcAlignment), (0b00010#5, .debug), (0b00011#5, .accessFlag .l1), (0b00101#5, .translation .l1),
   (0b00110#5, .accessFlag .l2), (0b00111#5, .translation .l2), (0b01000#5, .syncExternal), (0b01001#5, .domain .l1),
   (0b01011#5, .domain .l2), (0b01100#5, .syncExternalTTW .l1), (0b01101#5, .permission .l1),
   (0b01110#5, .syncExternalTTW .l2), (0b01111#5, .permission .l2), (0b10000#5, .tlbConflict), (0b10100#5, .lockdown),
   (0b11001#5, .syncParity), (0b11100#5, .syncParityTTW .l1), (0b11110#5, .syncParityTTW .l2)]

/-- STATUS, bits [5:0] of the long layout, in the source's order (10_state.md rule R23). -/
def longTable : List (BitVec 6 × FaultKind) :=
  [(0b000000#6, .addressSizeTTBR), (0b000001#6, .addressSize .l1), (0b000010#6, .addressSize .l2),
   (0b000011#6, .addressSize .l3), (0b000101#6, .translation .l1), (0b000110#6, .translation .l2),
   (0b000111#6, .translation .l3), (0b001001#6, .accessFlag .l1), (0b001010#6, .accessFlag .l2),
   (0b001011#6, .accessFlag .l3), (0b001101#6, .permission .l1), (0b001110#6, .permission .l2),
   (0b001111#6, .permission .l3), (0b010000#6, .syncExternal), (0b010101#6, .syncExternalTTW .l1),
   (0b010110#6, .syncExternalTTW .l2), (0b010111#6, .syncExternalTTW .l3), (0b011000#6, .syncParity),
   (0b011101#6, .syncParityTTW .l1), (0b011110#6, .syncParityTTW .l2), (0b011111#6, .syncParityTTW .l3),
   (0b100001#6, .pcAlignment), (0b100010#6, .debug), (0b110000#6, .tlbConflict)]

/-- "Synchronous parity or ECC error", on a walk or not (10_state.md rules R19, R23). -/
def isParity : FaultKind → Bool
  | .syncParity => true
  | .syncParityTTW _ => true
  | _ => false

/-- "Synchronous External abort", on a walk or not: the External aborts by name (60_exceptions.md rule R74). -/
def isExternalAbort : FaultKind → Bool
  | .syncExternal => true
  | .syncExternalTTW _ => true
  | _ => false

/-- The column "applies when": the parity or ECC rows apply when FEAT_RAS is not implemented, the others always
(10_state.md rules R19, R23; 90_conflicts.md C2). -/
def rowApplies (p : Params) (k : FaultKind) : Bool := !(isParity k && p.featRAS)

/-- A fault the implementation can raise: the Lockdown fault only where `HAS_LOCKDOWN_FAULT` (60_exceptions.md rule
R72). -/
def raisable (p : Params) (k : FaultKind) : Bool := rowApplies p k && (k != .lockdown || p.hasLockdownFault)

/-- `ShortCode` (60_exceptions.md rule R72). -/
def shortCode (p : Params) (k : FaultKind) : Option (BitVec 5) :=
  if raisable p k then (shortTable.find? (fun row => row.2 == k)).map (fun row => row.1) else none

/-- `LongCode` (60_exceptions.md rule R72). -/
def longCode (p : Params) (k : FaultKind) : Option (BitVec 6) :=
  if raisable p k then (longTable.find? (fun row => row.2 == k)).map (fun row => row.1) else none

/-- The kind a table row gives, where it applies; otherwise `Reserved` (10_state.md rules R20, R24, R30). -/
def kindOfRow {w : Nat} (p : Params) : Option (BitVec w × FaultKind) → DecodedKind
  | some row => if rowApplies p row.2 then .kind row.2 else .reserved
  | none => .reserved

/-- `ShortKind` (10_state.md rule R30). -/
def shortKind (p : Params) (fs : BitVec 5) : DecodedKind :=
  kindOfRow p (shortTable.find? (fun row => row.1 == fs))

/-- `LongKind` (10_state.md rule R30). -/
def longKind (p : Params) (status : BitVec 6) : DecodedKind :=
  kindOfRow p (longTable.find? (fun row => row.1 == status))

/-! ### Reserved bits (10_state.md rule R25) -/

def fieldsShort : Word := 0x0001160F#32
def res0Short : Word := 0xFFFEE9F0#32
def fieldsLong : Word := 0x0001123F#32
def res0Long : Word := 0xFFFEEDC0#32
def fieldsAny : Word := fieldsShort ||| fieldsLong
def res0Both : Word := res0Short &&& res0Long

/-! ### Fields of a stored value -/

/-- FnV, bit [16] (10_state.md rule R17). -/
def fieldFnV (v : Word) : Bit := v.extractLsb' 16 1

/-- ExT, bit [12] (10_state.md rule R18). -/
def fieldExT (v : Word) : Bit := v.extractLsb' 12 1

/-- LPAE, bit [9] (10_state.md rule R21). -/
def fieldLPAE (v : Word) : Bit := v.extractLsb' 9 1

/-- FS, bits [10, 3:0], bit 10 the most significant (10_state.md rule R19). -/
def fieldFS (v : Word) : BitVec 5 := v.extractLsb' 10 1 ++ v.extractLsb' 0 4

/-- STATUS, bits [5:0] (10_state.md rule R23). -/
def fieldSTATUS (v : Word) : BitVec 6 := v.extractLsb' 0 6

/-- `DecodeShort` (10_state.md rule R30). -/
def decodeShort (p : Params) (v : Word) : ShortView :=
  { fnv := fieldFnV v, ext := fieldExT v, lpae := fieldLPAE v, fs := fieldFS v, kind := shortKind p (fieldFS v),
    res0 := v &&& res0Short }

/-- `DecodeLong` (10_state.md rule R30). -/
def decodeLong (p : Params) (v : Word) : LongView :=
  { fnv := fieldFnV v, ext := fieldExT v, lpae := fieldLPAE v, status := fieldSTATUS v,
    kind := longKind p (fieldSTATUS v), res0 := v &&& res0Long }

/-! ### What the hardware composes (60_exceptions.md rules R70 to R75) -/

/-- `FnVBit` (60_exceptions.md rule R73). -/
def fnvBit (k : FaultKind) (ifarValid : Bool) : Bit :=
  if k = .syncExternal then (if ifarValid then 0#1 else 1#1) else 0#1

/-- The value composed in the short layout (60_exceptions.md rule R70), LPAE 0 (rule R75). -/
def composeShort (fnv ext : Bit) (code : BitVec 5) : Word :=
  (fnv.setWidth 32 <<< 16) ||| (ext.setWidth 32 <<< 12) ||| ((code.extractLsb' 4 1).setWidth 32 <<< 10)
    ||| (0#32 <<< 9) ||| (code.extractLsb' 0 4).setWidth 32

/-- The value composed in the long layout (60_exceptions.md rule R70), LPAE 1 (rule R75). -/
def composeLong (fnv ext : Bit) (code : BitVec 6) : Word :=
  (fnv.setWidth 32 <<< 16) ||| (ext.setWidth 32 <<< 12) ||| (1#32 <<< 9) ||| code.setWidth 32

/-- The value `RecordInstructionFault` composes for a report, given the ExT bit, in the layout that `eae` selects
(60_exceptions.md rules R70, R71); none where the fault has no code there (rule R77). -/
def recordedValue (p : Params) (r : FaultReport) (ext : Bit) : Option Word :=
  if r.eae = 0#1 then (shortCode p r.fault).map (composeShort (fnvBit r.fault r.ifarValid) ext)
  else (longCode p r.fault).map (composeLong (fnvBit r.fault r.ifarValid) ext)

end Sys2Proof.Machine
end

