-- ==== Sys2Proof/Machine/Record.lean ====
section
/-! DEFINITION. `RecordInstructionFault`: the hardware write on an instruction fault (60_exceptions.md rules R70 to
R78). -/

namespace Sys2Proof.Machine

/-- `ExTBit` (60_exceptions.md rule R74), with the state after a draw where one is made. -/
def recordedExt (r : FaultReport) (s : State) : Bit × State :=
  if !s.params.extClassified then (0#1, s)
  else if isExternalAbort r.fault then (Config.extClass r.abortInfo, s)
  else if isParity r.fault then drawBit s
  else (0#1, s)

/-- The value an instance holds after a recording of `v`: `v` (60_exceptions.md rule R76), except that under
`SYNC_REQUIRED` an unsynchronised software write into the same instance leaves either value, by a draw
(20_memory.md rule R45, 92_eei_decisions.md D16). -/
def valueLeft (n : InstanceName) (v : Word) (s : State) : Word × State :=
  match s.params.syncRequired, bankGet s.unsynced n with
  | true, some w => (if (drawBit s).1 = 1#1 then v else w, (drawBit s).2)
  | _, _ => (v, s)

/-- Stores a recorded value in an instance, all 32 bits of it (60_exceptions.md rule R76). -/
def storeRecorded (n : InstanceName) (v : Word) (s : State) : State :=
  cellWrite n (valueLeft n v s).1 (valueLeft n v s).2

/-- `RecordInstructionFault` (60_exceptions.md rule R70): refused where the register or the instance is absent
(10_state.md rules R11, R13) or the fault has no code in the layout (rule R77). -/
def recordInstructionFault (r : FaultReport) (s : State) : Host.Outcome State Fault Refusal :=
  if s.params.featAA32EL1 then
    if instanceExists s.params r.target then
      match recordedValue s.params r (recordedExt r s).1 with
      | some v => .next (storeRecorded r.target v (recordedExt r s).2)
      | none => .refused .noCodeInLayout
    else .refused .noSuchInstance
  else .refused .registerAbsent

end Sys2Proof.Machine
end

