-- ==== Sys2Proof/Machine/Reset.lean ====
section
/-! DEFINITION. `WarmReset` and the other resets (70_reset_and_hazards.md rules R90, R91). -/

namespace Sys2Proof.Machine

/-- An instance that exists takes `draw_32() AND WRITABLE`, a draw of its own (70_reset_and_hazards.md rule R90). -/
def resetCell (n : InstanceName) (s : State) : State :=
  if instanceExists s.params n then cellWrite n ((drawWord s).1 &&& s.params.writable) (drawWord s).2 else s

/-- `WarmReset` (70_reset_and_hazards.md rule R90). "Nothing else in scope is reset." -/
def warmReset (s : State) : State := resetCell .ifsrNS (resetCell .ifsrS (resetCell .ifsr s))

/-- A reset of either kind: every other reset is treated exactly as a Warm reset (70_reset_and_hazards.md rule
R91). -/
def performReset (kind : ResetKind) (s : State) : State :=
  match kind with
  | .warm => warmReset s
  | .other => warmReset s

end Sys2Proof.Machine
end

