-- ==== Sys2Proof/Machine/Step.lean ====
section
/-! DEFINITION. One step: the component performs the oldest operation the enclosing model has issued. -/

namespace Sys2Proof.Machine

/-- One issued operation, performed (00_scope.md section 4). Words that are no accessor of IFSR are "not IFSR"
(30_encoding.md rule R56). -/
def perform (r : Request) (s : State) : Host.Outcome State Fault Refusal :=
  match r with
  | .instruction w =>
    match decode w with
    | .ok i => exec i s
    | .error e => .refused (.notIFSR e)
  | .context c => .next (setContext c s)
  | .register t v => .next (regWrite t v s)
  | .recordFault rep => recordInstructionFault rep s
  | .reset kind => .next (performReset kind s)
  | .contextSync => .next (synchronise s)

/-- One step: the oldest issued operation happens, whole (20_memory.md rules R42, R45). With none issued the
component does nothing (DESIGN CHOICE: notes/assumptions/25.md). -/
def step (s : State) : Host.Outcome State Fault Refusal :=
  match takeRequest s with
  | none => .next s
  | some (r, s') => perform r s'

/-- The state with an instruction of the opcode table issued ahead of every waiting operation, so that the next step
runs it. DESIGN CHOICE: notes/assumptions/19.md. -/
def State.withFetchWord (s : State) (nbits w : Nat) : State := issueFirst (.instruction (tableWords nbits w)) s

end Sys2Proof.Machine
end

