-- ==== Sys2Proof/Safety.lean ====
section
/-! DEFINITION. The terms that claims about the machine use: the rules of access as the spec's tables state them,
the kinds a recording cannot express, and the invariant of a safe state. -/

namespace Sys2Proof.Safety

open Sys2Proof.Machine

/-! ### Instructions -/

/-- The direction of an instruction (30_encoding.md rule R52). -/
def direction : Instr → Direction
  | .mrcA32 _ _ => .read
  | .mcrA32 _ _ => .write
  | .mrcT32 _ => .read
  | .mcrT32 _ => .write

/-- The `Rt` field of an instruction (30_encoding.md rule R55). -/
def rtField : Instr → BitVec 4
  | .mrcA32 _ rt => rt
  | .mcrA32 _ rt => rt
  | .mrcT32 rt => rt
  | .mcrT32 rt => rt

/-! ### The rules of access, as tables -/

/-- An EL1 access is trapped to an EL2 that is using AArch64 (60_exceptions.md rules R81, R85). -/
def TrappedToAArch64 (p : Params) (c : Context) : Direction → Prop
  | .read =>
    c.el2Enabled = true ∧ p.featAA64EL2 = true ∧ c.el2UsingAArch32 = false ∧ (c.hstrEL2T5 = 1#1 ∨ c.hcrEL2Trvm = 1#1)
  | .write =>
    c.el2Enabled = true ∧ p.featAA64EL2 = true ∧ c.el2UsingAArch32 = false ∧ (c.hstrEL2T5 = 1#1 ∨ c.hcrEL2Tvm = 1#1)

/-- An EL1 access is trapped to an EL2 that is using AArch32 (60_exceptions.md rules R80, R85). -/
def TrappedToHyp (p : Params) (c : Context) : Direction → Prop
  | .read =>
    c.el2Enabled = true ∧ p.featAA32EL2 = true ∧ c.el2UsingAArch32 = true ∧ (c.hstrT5 = 1#1 ∨ c.hcrTrvm = 1#1)
  | .write =>
    c.el2Enabled = true ∧ p.featAA32EL2 = true ∧ c.el2UsingAArch32 = true ∧ (c.hstrT5 = 1#1 ∨ c.hcrTvm = 1#1)

/-- EL3 is implemented with `FEAT_AA32EL3` and using AArch32 (60_exceptions.md rule R83). -/
def EL3IsAArch32 (p : Params) (c : Context) : Prop :=
  p.haveEL3 = true ∧ p.featAA32EL3 = true ∧ c.el3UsingAArch32 = true

/-- The instance an access from EL1 or EL2 reaches (60_exceptions.md rule R83). -/
def BelowEL3Reaches (p : Params) (c : Context) (inst : InstanceName) : Prop :=
  (EL3IsAArch32 p c ∧ inst = .ifsrNS) ∨ (¬EL3IsAArch32 p c ∧ inst = .ifsr)

/-- The table of 60_exceptions.md rule R83: an access in this direction is allowed and reaches this instance. -/
def Reaches (p : Params) (c : Context) (dir : Direction) (inst : InstanceName) : Prop :=
  p.featAA32EL1 = true ∧
    ((c.el = .el1 ∧ ¬TrappedToAArch64 p c dir ∧ ¬TrappedToHyp p c dir ∧ BelowEL3Reaches p c inst) ∨
      (c.el = .el2 ∧ BelowEL3Reaches p c inst) ∨
      (c.el = .el3 ∧ ((c.scrNS = 0#1 ∧ inst = .ifsrS) ∨ (c.scrNS = 1#1 ∧ inst = .ifsrNS))))

/-- `AccessDecision` with the trap arms grouped (40_sysreg_access.md rule R64). -/
def groupedDecision (p : Params) (c : Context) (dir : Direction) : AccessDecision :=
  if !p.featAA32EL1 then .exception .undefined
  else
    match c.el with
    | .el0 => .exception .undefined
    | .el1 =>
      if trap64 p c dir then .exception (.trapToEL2AArch64 0x03#8)
      else if trap32 p c dir then .exception (.hypTrap 0x03#8)
      else if el3is32 p c then .access .ifsrNS
      else .access .ifsr
    | .el2 => if el3is32 p c then .access .ifsrNS else .access .ifsr
    | .el3 => if c.scrNS = 0#1 then .access .ifsrS else .access .ifsrNS

/-- `ReadIFSR(ctx, t)`, the complete operation as 40_sysreg_access.md rule R64 writes it, for `t` from 0 to 14. -/
def readOperation (t : Fin 15) (s : State) : Host.Outcome State Fault Refusal :=
  match groupedDecision s.params s.ctx .read with
  | .access inst =>
    if instanceExists s.params inst = false then .refused .noSuchInstance
    else if s.ctx.condPassed = false then .next { s with outcome := some .ok }
    else .next { s with regs := s.regs.set t (bankGet s.cells inst), outcome := some .ok }
  | .exception e =>
    if s.ctx.condPassed = false then .refused .conditionFailedOnNonOkAccess
    else .next { s with outcome := some (.exception e) }

/-- The state after a completed write of `R[t]` to an instance: the instance takes `R[t] AND WRITABLE`
(40_sysreg_access.md rule R61), which is remembered as unsynchronised (20_memory.md rule R45). -/
def afterWrite (t : Fin 15) (inst : InstanceName) (s : State) : State :=
  { s with
    cells := bankSet s.cells inst (s.regs[t] &&& s.params.writable)
    unsynced := bankSet s.unsynced inst (some (s.regs[t] &&& s.params.writable))
    outcome := some .ok }

/-- `WriteIFSR(ctx, t, R[t])`, the complete operation as 40_sysreg_access.md rule R64 writes it, for `t` from 0 to
14. -/
def writeOperation (t : Fin 15) (s : State) : Host.Outcome State Fault Refusal :=
  match groupedDecision s.params s.ctx .write with
  | .access inst =>
    if instanceExists s.params inst = false then .refused .noSuchInstance
    else if s.ctx.condPassed = false then .next { s with outcome := some .ok }
    else .next (afterWrite t inst s)
  | .exception e =>
    if s.ctx.condPassed = false then .refused .conditionFailedOnNonOkAccess
    else .next { s with outcome := some (.exception e) }

/-- The relations a real implementation satisfies, as far as 10_state.md rule R12 uses them (00_scope.md rule R4,
general knowledge): each level is using an Execution state that it has, and code at EL3 runs only where EL3 is
implemented and using AArch32. -/
structure ArchitecturalContext (p : Params) (c : Context) : Prop where
  el3HasAState : p.haveEL3 = true → p.featAA32EL3 = true ∨ p.featAA64 = true
  el3AArch32Implemented : p.haveEL3 = true → c.el3UsingAArch32 = true → p.featAA32EL3 = true
  el3AArch64Implemented : p.haveEL3 = true → c.el3UsingAArch32 = false → p.featAA64 = true
  atEL3 : c.el = .el3 → p.haveEL3 = true ∧ c.el3UsingAArch32 = true

/-! ### Recording -/

/-- A fault kind reported at lookup level 3 (60_exceptions.md rule R77). -/
def AtLevelThree (k : FaultKind) : Prop :=
  k = .addressSize .l3 ∨ k = .translation .l3 ∨ k = .accessFlag .l3 ∨ k = .permission .l3 ∨
    k = .syncExternalTTW .l3 ∨ k = .syncParityTTW .l3

/-- A parity or ECC kind (10_state.md rule R31). -/
def ParityKind (k : FaultKind) : Prop := k = .syncParity ∨ ∃ l, k = .syncParityTTW l

/-- The faults that the layout selected by `eae` cannot express (60_exceptions.md rule R77). -/
def NoCode (p : Params) (eae : Bit) (k : FaultKind) : Prop :=
  (eae = 1#1 ∧ ((∃ l, k = .domain l) ∨ k = .lockdown)) ∨
    (eae = 0#1 ∧ (k = .addressSizeTTBR ∨ (∃ l, k = .addressSize l) ∨ AtLevelThree k)) ∨
    (p.featRAS = true ∧ ParityKind k) ∨
    (p.hasLockdownFault = false ∧ k = .lockdown)

/-- A recording into this instance leaves the recorded value whatever software wrote before it: `SYNC_REQUIRED` is
off, or no software write into the instance is unsynchronised (20_memory.md rule R45). -/
def Synchronised (n : InstanceName) (s : State) : Prop :=
  s.params.syncRequired = false ∨ bankGet s.unsynced n = none

/-- The table of 10_state.md rule R31, typed row by row from it: each fault kind, its FS and its STATUS. -/
def kindRows : List (FaultKind × Option (BitVec 5) × Option (BitVec 6)) :=
  [(.addressSizeTTBR, none, some 0b000000#6), (.addressSize .l1, none, some 0b000001#6),
   (.addressSize .l2, none, some 0b000010#6), (.addressSize .l3, none, some 0b000011#6),
   (.translation .l1, some 0b00101#5, some 0b000101#6), (.translation .l2, some 0b00111#5, some 0b000110#6),
   (.translation .l3, none, some 0b000111#6), (.accessFlag .l1, some 0b00011#5, some 0b001001#6),
   (.accessFlag .l2, some 0b00110#5, some 0b001010#6), (.accessFlag .l3, none, some 0b001011#6),
   (.permission .l1, some 0b01101#5, some 0b001101#6), (.permission .l2, some 0b01111#5, some 0b001110#6),
   (.permission .l3, none, some 0b001111#6), (.domain .l1, some 0b01001#5, none), (.domain .l2, some 0b01011#5, none),
   (.syncExternal, some 0b01000#5, some 0b010000#6), (.syncExternalTTW .l1, some 0b01100#5, some 0b010101#6),
   (.syncExternalTTW .l2, some 0b01110#5, some 0b010110#6), (.syncExternalTTW .l3, none, some 0b010111#6),
   (.syncParity, some 0b11001#5, some 0b011000#6), (.syncParityTTW .l1, some 0b11100#5, some 0b011101#6),
   (.syncParityTTW .l2, some 0b11110#5, some 0b011110#6), (.syncParityTTW .l3, none, some 0b011111#6),
   (.pcAlignment, some 0b00001#5, some 0b100001#6), (.debug, some 0b00010#5, some 0b100010#6),
   (.tlbConflict, some 0b10000#5, some 0b110000#6), (.lockdown, some 0b10100#5, none)]

/-! ### Safe states -/

/-- A value that the cells can hold: only `WRITABLE` bits (10_state.md rule R26, 60_exceptions.md rule R76). -/
def WithinWritable (p : Params) (v : Word) : Prop := v &&& p.writable = v

/-- The invariant of the machine: `WRITABLE` meets its constraint (00_scope.md rule R4), every cell holds only
`WRITABLE` bits (10_state.md rule R26), an absent instance holds nothing (rules R11, R13), and a trap carries the
argument 0x03 (40_sysreg_access.md rule R62). -/
structure SafeState (s : State) : Prop where
  admissible : admissible s.params = true
  cells_within : ∀ n, WithinWritable s.params (cellRead n s)
  unsynced_within : ∀ n w, bankGet s.unsynced n = some w → WithinWritable s.params w
  absent_holds_nothing : ∀ n, instanceExists s.params n = false → cellRead n s = 0#32 ∧ bankGet s.unsynced n = none
  trap_argument : ∀ ec, s.outcome = some (.exception (.trapToEL2AArch64 ec)) ∨
    s.outcome = some (.exception (.hypTrap ec)) → ec = 0x03#8

end Sys2Proof.Safety
end

