-- ==== Sys2Proof/Certificates/Slice0/Obligations.lean ====
section
/-! DEFINITION. The statements about the machine that the provers settle. A rule R<n> is one of spec/; a note
"the model's choice" names the log entry in notes/assumptions/. -/

open Sys2Proof Sys2Proof.Machine Sys2Proof.Safety

/-! ## Encoding -/

/-- Decode and encode agree in both directions, every operand at every value: words decode to an instruction exactly
when the instruction is well formed and encodes to them (30_encoding.md rules R53, R54). The bit layouts are the spec's
own choice, D31 (notes/assumptions/18.md). -/
def Obligations.DecodeAnswersExactlyTheEncodedInstruction : Prop :=
  ∀ (w : InstrWords) (i : Instr), decode w = .ok i ↔ (wellFormed i = true ∧ encode i = w)

/-- 30_encoding.md rule R53: a 32-bit word is the A32 `MRC` or `MCR` exactly by its mask, its match and a `cond` that
is not 0b1111; `Rt` is bits [15:12]. The bit layout is the spec's own choice, D31 (notes/assumptions/18.md). -/
def Obligations.A32WordIsAnAccessorByMaskAndMatch : Prop :=
  (∀ (w : Word) (cond rt : BitVec 4),
    decode (.a32 w) = .ok (.mrcA32 cond rt) ↔
      (w &&& 0x0FFF0FFF#32 = 0x0E150F30#32 ∧ w.extractLsb' 28 4 ≠ 0b1111#4 ∧ cond = w.extractLsb' 28 4 ∧
        rt = w.extractLsb' 12 4)) ∧
  (∀ (w : Word) (cond rt : BitVec 4),
    decode (.a32 w) = .ok (.mcrA32 cond rt) ↔
      (w &&& 0x0FFF0FFF#32 = 0x0E050F30#32 ∧ w.extractLsb' 28 4 ≠ 0b1111#4 ∧ cond = w.extractLsb' 28 4 ∧
        rt = w.extractLsb' 12 4)) ∧
  (∀ (w : Word) (rt : BitVec 4),
    decode (.a32 w) ≠ .ok (.mrcT32 rt) ∧ decode (.a32 w) ≠ .ok (.mcrT32 rt)) ∧
  decode (.a32 0xEE150F30#32) = .ok (.mrcA32 0b1110#4 0#4) ∧
  decode (.a32 0xEE050F30#32) = .ok (.mcrA32 0b1110#4 0#4)

/-- 30_encoding.md rule R54: two halfwords are the T32 `MRC` or `MCR` exactly when they are 0xEE15 (0xEE05) and 0x0F30
OR (Rt << 12), and equally by the mask and match of `hw1 : hw2`. The T32 form has no `cond` field. The bit layout is
the spec's own choice, D31 (notes/assumptions/18.md). -/
def Obligations.T32HalfwordsAreAnAccessorByTheirValues : Prop :=
  (∀ (hw1 hw2 : Halfword) (rt : BitVec 4),
    decode (.t32 hw1 hw2) = .ok (.mrcT32 rt) ↔
      (hw1 = 0xEE15#16 ∧ hw2 = 0x0F30#16 ||| (rt.setWidth 16 <<< 12))) ∧
  (∀ (hw1 hw2 : Halfword) (rt : BitVec 4),
    decode (.t32 hw1 hw2) = .ok (.mcrT32 rt) ↔
      (hw1 = 0xEE05#16 ∧ hw2 = 0x0F30#16 ||| (rt.setWidth 16 <<< 12))) ∧
  (∀ (hw1 hw2 : Halfword),
    ((∃ rt, decode (.t32 hw1 hw2) = .ok (.mrcT32 rt)) ↔ (hw1 ++ hw2) &&& 0xFFFF0FFF#32 = 0xEE150F30#32) ∧
    ((∃ rt, decode (.t32 hw1 hw2) = .ok (.mcrT32 rt)) ↔ (hw1 ++ hw2) &&& 0xFFFF0FFF#32 = 0xEE050F30#32)) ∧
  (∀ (hw1 hw2 : Halfword) (cond rt : BitVec 4),
    decode (.t32 hw1 hw2) ≠ .ok (.mrcA32 cond rt) ∧ decode (.t32 hw1 hw2) ≠ .ok (.mcrA32 cond rt))

/-- 30_encoding.md rule R52: whatever words the decoder accepts, in either instruction set and in either direction,
carry the five values that select IFSR; the direction is not told by any of the five. Where the five values stand in a
word is the spec's own choice, D31 (notes/assumptions/18.md). -/
def Obligations.AcceptedWordsCarryTheFiveValuesOfIFSR : Prop :=
  ∀ (w : InstrWords) (i : Instr), decode w = .ok i →
    (tableNumber w).extractLsb' 8 4 = 0b1111#4 ∧ (tableNumber w).extractLsb' 21 3 = 0b000#3 ∧
    (tableNumber w).extractLsb' 16 4 = 0b0101#4 ∧ (tableNumber w).extractLsb' 0 4 = 0b0000#4 ∧
    (tableNumber w).extractLsb' 5 3 = 0b001#3 ∧
    ((tableNumber w).extractLsb' 20 1 = 1#1 ↔ direction i = .read) ∧
    (tableNumber w).extractLsb' 12 4 = rtField i

/-- 30_encoding.md rule R56: an `MRC` or `MCR` at any other point of the encoding space, in A32 or in T32, is "not
IFSR", and a step on it is refused under that name. Where the point stands in a word is the spec's own choice, D31
(notes/assumptions/18.md); the name of the refusal is the model's (notes/assumptions/27.md). -/
def Obligations.OtherEncodingPointsAreNotIFSR : Prop :=
  ∀ (cond : BitVec 4) (dir : Direction) (p : EncodingPoint) (rt : BitVec 4),
    cond ≠ 0b1111#4 → p ≠ { coproc := 0b1111#4, opc1 := 0b000#3, crn := 0b0101#4, crm := 0b0000#4, opc2 := 0b001#3 } →
    decode (.a32 (cond ++ 0b1110#4 ++ transferBody dir p rt)) = .error .otherRegister ∧
    decode (halfwords (0b11101110#8 ++ transferBody dir p rt)) = .error .otherRegister ∧
    ∀ (s : State) (rest : List Request),
      s.inbox = .instruction (.a32 (cond ++ 0b1110#4 ++ transferBody dir p rt)) :: rest ∨
        s.inbox = .instruction (halfwords (0b11101110#8 ++ transferBody dir p rt)) :: rest →
      step s = .refused (.notIFSR .otherRegister)

/-- The assembler's operands (30_encoding.md rules R50, R52): an accessor line whose five values are IFSR's is the
instruction of its mnemonic, condition and register, and one that omits `<opc2>` is never IFSR. That an omitted
`<opc2>` is 0 is PRESUMED (notes/assumptions/18.md). -/
def Obligations.AssembledAccessorIsTheInstructionItNames : Prop :=
  ∀ (cond rt : BitVec 4), cond ≠ 0b1111#4 →
    assembleA32 cond ⟨.read, 0b1111#4, 0b000#3, rt, 0b0101#4, 0b0000#4, some 0b001#3⟩ = .ok (.mrcA32 cond rt) ∧
    assembleA32 cond ⟨.write, 0b1111#4, 0b000#3, rt, 0b0101#4, 0b0000#4, some 0b001#3⟩ = .ok (.mcrA32 cond rt) ∧
    assembleT32 ⟨.read, 0b1111#4, 0b000#3, rt, 0b0101#4, 0b0000#4, some 0b001#3⟩ = .ok (.mrcT32 rt) ∧
    assembleT32 ⟨.write, 0b1111#4, 0b000#3, rt, 0b0101#4, 0b0000#4, some 0b001#3⟩ = .ok (.mcrT32 rt) ∧
    ∀ a : Accessor, a.opc2 = none →
      assembleA32 cond a = .error .otherRegister ∧ assembleT32 a = .error .otherRegister

/-- The words of 95_test_vectors.md section 2.9, every vector E1 to E11 in each instruction set it is listed in and
every non-match, decode as listed. They rest on the spec's own choice of layout, D31 (notes/assumptions/18.md); the
names of the three reasons for a non-match are the model's (notes/assumptions/27.md). -/
def Obligations.WordsOfTheVectorsDecodeAsListed : Prop :=
  decode (.a32 0xEE150F30#32) = .ok (.mrcA32 0b1110#4 0#4) ∧ decode (.t32 0xEE15#16 0x0F30#16) = .ok (.mrcT32 0#4) ∧
  decode (.a32 0xEE050F30#32) = .ok (.mcrA32 0b1110#4 0#4) ∧ decode (.t32 0xEE05#16 0x0F30#16) = .ok (.mcrT32 0#4) ∧
  decode (.a32 0xEE151F30#32) = .ok (.mrcA32 0b1110#4 1#4) ∧ decode (.t32 0xEE15#16 0x1F30#16) = .ok (.mrcT32 1#4) ∧
  decode (.a32 0xEE051F30#32) = .ok (.mcrA32 0b1110#4 1#4) ∧ decode (.t32 0xEE05#16 0x1F30#16) = .ok (.mcrT32 1#4) ∧
  decode (.a32 0xEE153F30#32) = .ok (.mrcA32 0b1110#4 3#4) ∧ decode (.t32 0xEE15#16 0x3F30#16) = .ok (.mrcT32 3#4) ∧
  decode (.a32 0xEE057F30#32) = .ok (.mcrA32 0b1110#4 7#4) ∧ decode (.t32 0xEE05#16 0x7F30#16) = .ok (.mcrT32 7#4) ∧
  decode (.a32 0xEE15CF30#32) = .ok (.mrcA32 0b1110#4 12#4) ∧ decode (.t32 0xEE15#16 0xCF30#16) = .ok (.mrcT32 12#4) ∧
  decode (.a32 0xEE05EF30#32) = .ok (.mcrA32 0b1110#4 14#4) ∧ decode (.t32 0xEE05#16 0xEF30#16) = .ok (.mcrT32 14#4) ∧
  decode (.a32 0x0E152F30#32) = .ok (.mrcA32 0b0000#4 2#4) ∧
  decode (.a32 0x1E055F30#32) = .ok (.mcrA32 0b0001#4 5#4) ∧
  decode (.a32 0xEE15FF30#32) = .ok (.mrcA32 0b1110#4 15#4) ∧ decode (.t32 0xEE15#16 0xFF30#16) = .ok (.mrcT32 15#4) ∧
  decode (.a32 0xEE150F10#32) = .error .otherRegister ∧
  decode (.a32 0xEE150F31#32) = .error .otherRegister ∧
  decode (.a32 0xEE160F30#32) = .error .otherRegister ∧
  decode (.a32 0xEE350F30#32) = .error .otherRegister ∧
  decode (.a32 0xEE150E30#32) = .error .otherRegister ∧
  decode (.a32 0xFE150F30#32) = .error .unconditionalSpace ∧
  decode (.a32 0xEE150F20#32) = .error .notRegisterTransfer

/-! ## Steps -/

/-- A step runs the decoded instruction: when the words issued first decode to an instruction, the step is `exec` of it
on the state without that operation, and nothing is added around it; words that decode to none are refused as "not
IFSR" (20_memory.md rule R45, 30_encoding.md rule R56). That operations wait in a queue of State is the model's choice
(notes/assumptions/1.md). -/
def Obligations.StepRunsTheDecodedInstruction : Prop :=
  ∀ (s : State) (w : InstrWords) (rest : List Request), s.inbox = .instruction w :: rest →
    (∀ i, decode w = .ok i → step s = exec i { s with inbox := rest }) ∧
    (∀ e, decode w = .error e → step s = .refused (.notIFSR e))

/-- The operations of the enclosing model other than instructions and recordings always complete, each with its whole
effect, one at a time in issue order (20_memory.md rule R45): new inputs (10_state.md rule R27), a value for `R[t]`
(10_state.md rule R28), a reset (70_reset_and_hazards.md rules R90, R91) and a context synchronisation event. That
every kind of reset is a Warm reset is the spec's own decision D17 (notes/assumptions/21.md). The model's choices are:
the queue (notes/assumptions/1.md), the field `unsynced` that a context synchronisation event clears
(notes/assumptions/14.md), the fields each operation leaves alone (notes/assumptions/28.md, 31.md and 33.md), and that
a step with no operation issued changes nothing (notes/assumptions/25.md). -/
def Obligations.EnvironmentOperationsComplete : Prop :=
  ∀ (s : State) (rest : List Request),
    (∀ c, s.inbox = .context c :: rest → step s = .next { s with inbox := rest, ctx := c }) ∧
    (∀ t v, s.inbox = .register t v :: rest → step s = .next { s with inbox := rest, regs := s.regs.set t v }) ∧
    (s.inbox = .contextSync :: rest →
      step s = .next { s with inbox := rest, unsynced := ⟨none, none, none⟩ }) ∧
    (∀ kind, s.inbox = .reset kind :: rest → step s = .next (warmReset { s with inbox := rest })) ∧
    (s.inbox = [] → step s = .next s)

/-- An instruction placed by `withFetchWord` is the one the next step runs (the model's choice,
notes/assumptions/19.md). -/
def Obligations.FetchWordIsTheNextInstructionRun : Prop :=
  ∀ (s : State) (nbits w : Nat) (i : Instr), decodeTableWord nbits w = some i →
    step (s.withFetchWord nbits w) = exec i s

/-! ## Accesses: completion and results -/

/-- Completion and result of `MRC`, A32 and T32 (40_sysreg_access.md rule R60, 20_memory.md rule R41): where the rules
let the read reach an instance that exists and its condition passed, all 32 bits of the instance go to `R[t]` and
nothing else changes but the outcome returned, `Ok`. R60 rests in part on the spec's own decisions D18, D19 and D21
(notes/assumptions/4.md, 15.md and 17.md). -/
def Obligations.ReadMovesTheReachedInstanceIntoTheRegister : Prop :=
  ∀ (cond : BitVec 4) (t : Fin 15) (s : State) (inst : InstanceName),
    Reaches s.params s.ctx .read inst → instanceExists s.params inst = true → s.ctx.condPassed = true →
    exec (.mrcA32 cond (BitVec.ofNat 4 t)) s =
      .next { s with regs := s.regs.set t (bankGet s.cells inst), outcome := some .ok } ∧
    exec (.mrcT32 (BitVec.ofNat 4 t)) s =
      .next { s with regs := s.regs.set t (bankGet s.cells inst), outcome := some .ok }

/-- Completion and result of `MCR`, A32 and T32 (40_sysreg_access.md rule R61, 10_state.md rule R26): where the rules
let the write reach an instance that exists and its condition passed, the instance takes `R[t] AND WRITABLE`, the other
instances and every register keep their values, and the outcome is `Ok`. The remembered unsynchronised value is the
model's own field (notes/assumptions/14.md). The mask is the spec's own decision D6 (notes/assumptions/8.md). -/
def Obligations.WriteStoresTheMaskedRegisterInTheReachedInstance : Prop :=
  ∀ (cond : BitVec 4) (t : Fin 15) (s : State) (inst : InstanceName),
    Reaches s.params s.ctx .write inst → instanceExists s.params inst = true → s.ctx.condPassed = true →
    exec (.mcrA32 cond (BitVec.ofNat 4 t)) s = .next (afterWrite t inst s) ∧
    exec (.mcrT32 (BitVec.ofNat 4 t)) s = .next (afterWrite t inst s)

/-- 20_memory.md rule R41: an access moves all 32 bits, bit `i` to bit `i`: a read from the reached instance into
`R[t]`, a write from `R[t]` toward the reached instance, subject to `WRITABLE`. The rule is marked by the spec as
derived from the assignments of the pseudocode, and as its decision D15 (notes/assumptions/20.md). -/
def Obligations.EveryBitMovesToItsOwnPlace : Prop :=
  ∀ (i : Instr) (t : Fin 15) (s : State) (inst : InstanceName),
    rtField i = BitVec.ofNat 4 t → Reaches s.params s.ctx (direction i) inst →
    instanceExists s.params inst = true → s.ctx.condPassed = true →
    ∃ u, exec i s = .next u ∧
      (direction i = .read → ∀ k < 32, u.regs[t].getLsbD k = (cellRead inst s).getLsbD k) ∧
      (direction i = .write → ∀ k < 32,
        (cellRead inst u).getLsbD k = (s.regs[t].getLsbD k && s.params.writable.getLsbD k))

/-- 40_sysreg_access.md rule R64: the two pseudocodes, tested arm by arm, are one decision function with the four trap
arms grouped, and the accesses are its complete operations, for every register field and in both instruction sets. The
spec marks the rule as derived from rules R60 to R62. Its checks around the pseudocode are the spec's own decisions
D18, D19 and D21 (notes/assumptions/4.md, 15.md and 17.md). -/
def Obligations.AccessesAreTheGroupedDecisionOperations : Prop :=
  (∀ (p : Params) (c : Context) (dir : Direction), accessDecision p c dir = groupedDecision p c dir) ∧
  (∀ (cond : BitVec 4) (t : Fin 15) (s : State),
    exec (.mrcA32 cond (BitVec.ofNat 4 t)) s = readOperation t s ∧
    exec (.mrcT32 (BitVec.ofNat 4 t)) s = readOperation t s ∧
    exec (.mcrA32 cond (BitVec.ofNat 4 t)) s = writeOperation t s ∧
    exec (.mcrT32 (BitVec.ofNat 4 t)) s = writeOperation t s) ∧
  (∀ (i : Instr) (s : State), rtField i = 15#4 → exec i s = .refused .rtIs15)

/-- 30_encoding.md rule R55: `t = 15` is refused in every state, by every instruction, and no other `t` is refused for
its number. The refusal is the spec's own decision D18 (notes/assumptions/4.md). -/
def Obligations.RegisterFifteenAloneIsRefused : Prop :=
  ∀ (i : Instr) (s : State),
    (rtField i = 15#4 → exec i s = .refused .rtIs15) ∧
    (rtField i ≠ 15#4 → exec i s ≠ .refused .rtIs15)

/-- 40_sysreg_access.md rule R62: an access ends in one of the listed outcomes and no other, and every outcome but `Ok`
leaves the component's state and the registers as they were. The outcomes are the spec's own decision D3 and D4
(notes/assumptions/7.md). -/
def Obligations.AnAccessEndsInOneOfTheListedOutcomes : Prop :=
  ∀ (i : Instr) (s : State),
    (∃ t, exec i s = .next t ∧ t.outcome = some .ok) ∨
    exec i s = .next { s with outcome := some (.exception .undefined) } ∨
    exec i s = .next { s with outcome := some (.exception (.trapToEL2AArch64 0x03#8)) } ∨
    exec i s = .next { s with outcome := some (.exception (.hypTrap 0x03#8)) } ∨
    exec i s = .refused .rtIs15 ∨ exec i s = .refused .noSuchInstance ∨
    exec i s = .refused .conditionFailedOnNonOkAccess

/-- 40_sysreg_access.md rule R63: an access whose outcome is not `Ok` changes neither any instance nor any register;
the spec marks the rule as derived from the arms of the pseudocode. That the outcome is recorded in a next state in
which nothing else changes either, the context with its level among it, is the spec's own decision D3 and D4 and the
model's choice (notes/assumptions/7.md). -/
def Obligations.AnAccessThatIsNotOkChangesNothing : Prop :=
  ∀ (i : Instr) (s t : State), exec i s = .next t → t.outcome ≠ some .ok →
    t = { s with outcome := t.outcome }

/-- 30_encoding.md rule R57: under a failed condition an access returns `Ok` with no change only if it would have
returned `Ok`; one that would be `Undefined` or trapped is refused; a refusal stays that refusal. It is the spec's own
decision D19 (notes/assumptions/15.md). -/
def Obligations.AFailedConditionHasNoEffectOnlyWhereTheAccessIsOk : Prop :=
  ∀ (i : Instr) (s : State), s.ctx.condPassed = false →
    (∀ t, exec i { s with ctx := { s.ctx with condPassed := true } } = .next t → t.outcome = some .ok →
      exec i s = .next { s with outcome := some .ok }) ∧
    (∀ t e, exec i { s with ctx := { s.ctx with condPassed := true } } = .next t → t.outcome = some (.exception e) →
      exec i s = .refused .conditionFailedOnNonOkAccess) ∧
    (∀ r, exec i { s with ctx := { s.ctx with condPassed := true } } = .refused r → exec i s = .refused r)

/-! ## Accesses: exceptions, privilege, banking -/

/-- 60_exceptions.md rule R79: an access is `Undefined` in every context when `FEAT_AA32EL1` is not implemented and at
EL0, and only then; nothing else changes. The component's own checks stand around it: a register field of 15 is refused
first (30_encoding.md rule R55), and such an access under a failed condition is refused (30_encoding.md rule R57).
Those two checks are the spec's own decisions D18 and D19 (notes/assumptions/4.md and 15.md); that `Undefined` is the
outcome of a next state with nothing else changed is decision D3 and the model's choice (notes/assumptions/7.md). -/
def Obligations.UndefinedExactlyWithoutTheFeatureOrAtEL0 : Prop :=
  ∀ (i : Instr) (s : State),
    ((s.params.featAA32EL1 = false ∨ s.ctx.el = .el0) →
      exec i s =
        if rtField i = 15#4 then .refused .rtIs15
        else if s.ctx.condPassed = true then .next { s with outcome := some (.exception .undefined) }
        else .refused .conditionFailedOnNonOkAccess) ∧
    (∀ t, exec i s = .next t → t.outcome = some (.exception .undefined) →
      s.params.featAA32EL1 = false ∨ s.ctx.el = .el0)

/-- 60_exceptions.md rule R80: `HypTrap(0x03)` is raised exactly for an access from EL1 when EL2 is enabled, implements
and is using AArch32, and `HSTR.T5`, or `HCR.TRVM` for a read, or `HCR.TVM` for a write, is 1; nothing else changes.
That the trap is the outcome of a next state with nothing else changed is the spec's own decision D4 and the model's
choice (notes/assumptions/7.md). An access with register field 15 and one under a failed condition have their own
statements (RegisterFifteenAloneIsRefused, AFailedConditionHasNoEffectOnlyWhereTheAccessIsOk). -/
def Obligations.HypTrapExactlyUnderTheAArch32Controls : Prop :=
  ∀ (i : Instr) (s : State), rtField i ≠ 15#4 → s.ctx.condPassed = true →
    (s.params.featAA32EL1 = true → s.ctx.el = .el1 → TrappedToHyp s.params s.ctx (direction i) →
      exec i s = .next { s with outcome := some (.exception (.hypTrap 0x03#8)) }) ∧
    (∀ t ec, exec i s = .next t → t.outcome = some (.exception (.hypTrap ec)) →
      ec = 0x03#8 ∧ s.params.featAA32EL1 = true ∧ s.ctx.el = .el1 ∧ TrappedToHyp s.params s.ctx (direction i))

/-- 60_exceptions.md rule R81: `TrapToEL2_AArch64(0x03)` is raised exactly for an access from EL1 when EL2 is enabled,
implements AArch64 and is not using AArch32, and `HSTR_EL2.T5`, or `HCR_EL2.TRVM` for a read, or `HCR_EL2.TVM` for a
write, is 1; nothing else changes. That the trap is the outcome of a next state with nothing else changed is the spec's
own decision D4 and the model's choice (notes/assumptions/7.md). An access with register field 15 and one under a
failed condition have their own statements (RegisterFifteenAloneIsRefused,
AFailedConditionHasNoEffectOnlyWhereTheAccessIsOk). -/
def Obligations.TrapToAArch64ExactlyUnderTheAArch64Controls : Prop :=
  ∀ (i : Instr) (s : State), rtField i ≠ 15#4 → s.ctx.condPassed = true →
    (s.params.featAA32EL1 = true → s.ctx.el = .el1 → TrappedToAArch64 s.params s.ctx (direction i) →
      exec i s = .next { s with outcome := some (.exception (.trapToEL2AArch64 0x03#8)) }) ∧
    (∀ t ec, exec i s = .next t → t.outcome = some (.exception (.trapToEL2AArch64 ec)) →
      ec = 0x03#8 ∧ s.params.featAA32EL1 = true ∧ s.ctx.el = .el1 ∧ TrappedToAArch64 s.params s.ctx (direction i))

/-- 60_exceptions.md rule R82: the first test that succeeds decides. Without the feature the access is `Undefined`
whatever the level and the controls; at EL0 it is `Undefined` and never trapped, even with every control set; at EL1
the trap comes before the access, even where the instance named does not exist; and the order of the four trap tests
among themselves does not matter. -/
def Obligations.ChecksAreMadeInTheOrderOfTheRule : Prop :=
  ∀ (p : Params) (c : Context) (dir : Direction),
    (p.featAA32EL1 = false → accessDecision p c dir = .exception .undefined) ∧
    (p.featAA32EL1 = true → c.el = .el0 → accessDecision p c dir = .exception .undefined) ∧
    (p.featAA32EL1 = true → c.el = .el1 → TrappedToAArch64 p c dir →
      accessDecision p c dir = .exception (.trapToEL2AArch64 0x03#8)) ∧
    (p.featAA32EL1 = true → c.el = .el1 → TrappedToHyp p c dir →
      accessDecision p c dir = .exception (.hypTrap 0x03#8)) ∧
    ¬(TrappedToAArch64 p c dir ∧ TrappedToHyp p c dir) ∧
    (p.featAA32EL1 = true → c.el ≠ .el0 → ¬(c.el = .el1 ∧ TrappedToAArch64 p c dir) →
      ¬(c.el = .el1 ∧ TrappedToHyp p c dir) → ∃ inst, accessDecision p c dir = .access inst)

/-- 60_exceptions.md rule R83: the table of what each Exception level may do with IFSR and which instance it reaches.
The spec marks the table as derived from rule R64. -/
def Obligations.EachLevelMayDoWhatTheTableSays : Prop :=
  ∀ (p : Params) (c : Context) (dir : Direction),
    (p.featAA32EL1 = false → accessDecision p c dir = .exception .undefined) ∧
    (p.featAA32EL1 = true → c.el = .el0 → accessDecision p c dir = .exception .undefined) ∧
    (p.featAA32EL1 = true → c.el = .el1 → ¬TrappedToAArch64 p c dir → ¬TrappedToHyp p c dir →
      ∀ inst, accessDecision p c dir = .access inst ↔ BelowEL3Reaches p c inst) ∧
    (p.featAA32EL1 = true → c.el = .el1 → (TrappedToAArch64 p c dir ∨ TrappedToHyp p c dir) →
      ∀ inst, accessDecision p c dir ≠ .access inst) ∧
    (p.featAA32EL1 = true → c.el = .el2 → ∀ inst, accessDecision p c dir = .access inst ↔ BelowEL3Reaches p c inst) ∧
    (p.featAA32EL1 = true → c.el = .el3 → c.scrNS = 0#1 → accessDecision p c dir = .access .ifsrS) ∧
    (p.featAA32EL1 = true → c.el = .el3 → c.scrNS ≠ 0#1 → accessDecision p c dir = .access .ifsrNS)

/-- 60_exceptions.md rule R85: each of the six EL2 controls intercepts what its row says, each is without effect where
EL2 is not enabled or not in the Execution state the control belongs to, and none affects an access from EL0, EL2 or
EL3. -/
def Obligations.EL2ControlsInterceptWhatTheTableSays : Prop :=
  ∀ (p : Params) (c : Context) (dir : Direction) (b1 b2 b3 b4 b5 b6 : Bit),
    (p.featAA32EL1 = true → c.el = .el1 → c.el2Enabled = true → p.featAA64EL2 = true → c.el2UsingAArch32 = false →
      (c.hstrEL2T5 = 1#1 → accessDecision p c dir = .exception (.trapToEL2AArch64 0x03#8)) ∧
      (c.hcrEL2Trvm = 1#1 → accessDecision p c .read = .exception (.trapToEL2AArch64 0x03#8)) ∧
      (c.hcrEL2Tvm = 1#1 → accessDecision p c .write = .exception (.trapToEL2AArch64 0x03#8))) ∧
    (p.featAA32EL1 = true → c.el = .el1 → c.el2Enabled = true → p.featAA32EL2 = true → c.el2UsingAArch32 = true →
      (c.hstrT5 = 1#1 → accessDecision p c dir = .exception (.hypTrap 0x03#8)) ∧
      (c.hcrTrvm = 1#1 → accessDecision p c .read = .exception (.hypTrap 0x03#8)) ∧
      (c.hcrTvm = 1#1 → accessDecision p c .write = .exception (.hypTrap 0x03#8))) ∧
    (c.el2Enabled = false ∨ c.el ≠ .el1 →
      accessDecision p
        { c with hstrEL2T5 := b1, hcrEL2Trvm := b2, hcrEL2Tvm := b3, hstrT5 := b4, hcrTrvm := b5, hcrTvm := b6 } dir =
        accessDecision p c dir) ∧
    (p.featAA64EL2 = false ∨ c.el2UsingAArch32 = true →
      accessDecision p { c with hstrEL2T5 := b1, hcrEL2Trvm := b2, hcrEL2Tvm := b3 } dir = accessDecision p c dir) ∧
    (p.featAA32EL2 = false ∨ c.el2UsingAArch32 = false →
      accessDecision p { c with hstrT5 := b4, hcrTrvm := b5, hcrTvm := b6 } dir = accessDecision p c dir) ∧
    accessDecision p { c with hcrEL2Tvm := b3, hcrTvm := b6 } .read = accessDecision p c .read ∧
    accessDecision p { c with hcrEL2Trvm := b2, hcrTrvm := b5 } .write = accessDecision p c .write

/-- 60_exceptions.md rule R84: only code at EL3 can reach both banked instances, and `SCR.NS` selects between them;
code below EL3 cannot reach `IFSR_S`: an access from there does the same whatever `IFSR_S` holds, learns nothing of it
and leaves it as it was; and a write to one instance leaves the others as they were. The spec marks the rule as derived
from rules R60 and R61. -/
def Obligations.IFSRSecureIsOutOfReachBelowEL3 : Prop :=
  (∀ (i : Instr) (s : State) (v : Word), s.ctx.el ≠ .el3 →
    (∀ t, exec i s = .next t →
      bankGet t.cells .ifsrS = bankGet s.cells .ifsrS ∧
      exec i { s with cells := { s.cells with ifsrS := v } } =
        .next { t with cells := { t.cells with ifsrS := v } }) ∧
    (∀ r, exec i s = .refused r → exec i { s with cells := { s.cells with ifsrS := v } } = .refused r)) ∧
  (∀ (p : Params) (c : Context) (dir : Direction), p.featAA32EL1 = true → c.el = .el3 →
    (c.scrNS = 0#1 → accessDecision p c dir = .access .ifsrS) ∧
    (c.scrNS ≠ 0#1 → accessDecision p c dir = .access .ifsrNS)) ∧
  (∀ (p : Params) (c : Context) (dir : Direction) (n m : InstanceName), c.el ≠ .el3 →
    accessDecision p c dir = .access n → accessDecision p c dir = .access m → n = m ∧ n ≠ .ifsrS) ∧
  (∀ (i : Instr) (s t : State) (n m : InstanceName), direction i = .write → exec i s = .next t →
    bankGet t.cells n ≠ bankGet s.cells n → m ≠ n → bankGet t.cells m = bankGet s.cells m)

/-- 10_state.md rule R11: which instances exist, over the parameters (in an implementation that has the register at
all, rule R13), and that each is a separate 32-bit cell. That the cells are separate is the spec's own decision D20
(notes/assumptions/16.md); that R13 bounds R11 is the model's deduction (notes/assumptions/26.md). -/
def Obligations.InstancesExistAsTheParametersSayAndAreSeparate : Prop :=
  (∀ p : Params, p.featAA32EL1 = true →
    (instanceExists p .ifsr = true ↔ (p.haveEL3 = false ∨ p.featAA64 = true)) ∧
    (instanceExists p .ifsrS = true ↔ p.featAA32EL3 = true) ∧
    (instanceExists p .ifsrNS = true ↔ p.featAA32EL3 = true)) ∧
  (∀ (s : State) (n m : InstanceName) (v : Word),
    cellRead m (cellWrite n v s) = if m = n then v else cellRead m s)

/-- 10_state.md rule R12: in a context that meets the architectural relations every instance the pseudocode names
exists; where a context names one that does not exist, the access is `Refused(NoSuchInstance)`; and `IFSR_NS` (or
`IFSR_S`) is named exactly when EL3 is using AArch32 or is the current level. The refusal is the spec's own decision
D21 (notes/assumptions/17.md). -/
def Obligations.NamedInstancesExistOrTheAccessIsRefused : Prop :=
  (∀ (p : Params) (c : Context) (dir : Direction) (inst : InstanceName),
    accessDecision p c dir = .access inst → (inst ≠ .ifsr ↔ (EL3IsAArch32 p c ∨ c.el = .el3))) ∧
  (∀ (p : Params) (c : Context) (dir : Direction) (inst : InstanceName),
    ArchitecturalContext p c → accessDecision p c dir = .access inst → instanceExists p inst = true) ∧
  (∀ (i : Instr) (s : State) (inst : InstanceName), rtField i ≠ 15#4 →
    accessDecision s.params s.ctx (direction i) = .access inst → instanceExists s.params inst = false →
    exec i s = .refused .noSuchInstance)

/-- 10_state.md rule R13: without `FEAT_AA32EL1` there is no instance, both accesses are `Undefined` in every context
(around the two checks of 30_encoding.md rules R55 and R57), a recording is refused, and a reset changes nothing. The
two checks are the spec's own decisions D18 and D19 (notes/assumptions/4.md and 15.md), the outcome of a next state is
D3 (notes/assumptions/7.md), that a reset finds no instance follows from 70_reset_and_hazards.md rules R90 and R91, and
the name of the refused recording is the model's (notes/assumptions/27.md). -/
def Obligations.WithoutTheFeatureTheRegisterIsAbsent : Prop :=
  ∀ s : State, s.params.featAA32EL1 = false →
    (∀ n, instanceExists s.params n = false) ∧
    (∀ i, exec i s =
      if rtField i = 15#4 then .refused .rtIs15
      else if s.ctx.condPassed = true then .next { s with outcome := some (.exception .undefined) }
      else .refused .conditionFailedOnNonOkAccess) ∧
    (∀ r, recordInstructionFault r s = .refused .registerAbsent) ∧
    (∀ kind, performReset kind s = s)

/-! ## Accesses: frames and sequences -/

/-- Frame of `MRC`, A32 and T32 (20_memory.md rule R42, 40_sysreg_access.md rule R60): a read has no side effect. No
instance changes, no register but `R[t]`, no parameter, no input, nothing that waits; only the outcome returned. That
an access which ends in an exception leaves the inputs as they were is the model's choice (notes/assumptions/7.md). -/
def Obligations.AReadChangesOnlyItsRegister : Prop :=
  ∀ (i : Instr) (s t : State), direction i = .read → exec i s = .next t →
    t.cells = s.cells ∧ t.unsynced = s.unsynced ∧ t.params = s.params ∧ t.ctx = s.ctx ∧ t.draws = s.draws ∧
    t.inbox = s.inbox ∧ ∀ k : Fin 15, k.val ≠ (rtField i).toNat → t.regs[k] = s.regs[k]

/-- Frame of `MCR`, A32 and T32 (20_memory.md rule R42, 40_sysreg_access.md rule R61): no register changes, and no
instance but the one the rules of access let the write reach. That an access which ends in an exception leaves the
inputs as they were is the model's choice (notes/assumptions/7.md). -/
def Obligations.AWriteChangesOnlyTheReachedInstance : Prop :=
  ∀ (i : Instr) (s t : State), direction i = .write → exec i s = .next t →
    t.regs = s.regs ∧ t.params = s.params ∧ t.ctx = s.ctx ∧ t.draws = s.draws ∧ t.inbox = s.inbox ∧
    ∀ n, ¬(Reaches s.params s.ctx .write n ∧ s.ctx.condPassed = true) →
      bankGet t.cells n = bankGet s.cells n ∧ bankGet t.unsynced n = bankGet s.unsynced n

/-- 20_memory.md rule R45 (vector V10): a read issued right after a write to the same instance returns the value the
write stored, whatever the instance held, on every implementation. The order of operations is the spec's own decision
D16 (notes/assumptions/20.md). -/
def Obligations.AReadAfterAWriteReturnsWhatWasStored : Prop :=
  ∀ (s : State) (w1 w2 : InstrWords) (rest : List Request) (iw ir : Instr) (tw tr : Fin 15) (inst : InstanceName),
    s.inbox = .instruction w1 :: .instruction w2 :: rest → decode w1 = .ok iw → decode w2 = .ok ir →
    direction iw = .write → direction ir = .read → rtField iw = BitVec.ofNat 4 tw → rtField ir = BitVec.ofNat 4 tr →
    Reaches s.params s.ctx .write inst → Reaches s.params s.ctx .read inst → instanceExists s.params inst = true →
    s.ctx.condPassed = true →
    ∃ s1 s2, step s = .next s1 ∧ step s1 = .next s2 ∧
      bankGet s2.cells inst = s.regs[tw] &&& s.params.writable ∧
      s2.regs = s.regs.set tr (s.regs[tw] &&& s.params.writable)

/-- 20_memory.md rule R45: a read issued right after a recording into the instance it reaches returns the recorded
value (program P3 of 95_test_vectors.md). The order of operations is the spec's own decision D16
(notes/assumptions/20.md). -/
def Obligations.AReadAfterARecordingReturnsTheRecordedValue : Prop :=
  ∀ (s : State) (r : FaultReport) (w : InstrWords) (rest : List Request) (i : Instr) (t : Fin 15) (v : Word),
    s.inbox = .recordFault r :: .instruction w :: rest → decode w = .ok i → direction i = .read →
    rtField i = BitVec.ofNat 4 t → Reaches s.params s.ctx .read r.target → instanceExists s.params r.target = true →
    s.ctx.condPassed = true → Synchronised r.target s →
    recordedValue s.params r (recordedExt r s).1 = some v →
    ∃ s1 s2, step s = .next s1 ∧ step s1 = .next s2 ∧ s2.regs = s.regs.set t v

/-- 10_state.md rule R14: a value written through IFSR, by `MCR` in A32 or in T32, is the one read through
`IFSR32_EL2`, and a write that reaches another instance leaves `IFSR32_EL2` as it was. That the other instances are
separate is the spec's own decision D20 (notes/assumptions/16.md). -/
def Obligations.IFSRIsTheStorageOfIFSR32EL2 : Prop :=
  ∀ (i : Instr) (t : Fin 15) (s : State) (inst : InstanceName),
    direction i = .write → rtField i = BitVec.ofNat 4 t → Reaches s.params s.ctx .write inst →
    instanceExists s.params inst = true → s.ctx.condPassed = true →
    ∃ u, exec i s = .next u ∧
      (inst = .ifsr → ifsr32EL2 u = s.regs[t] &&& s.params.writable) ∧
      (inst ≠ .ifsr → ifsr32EL2 u = ifsr32EL2 s)

/-! ## Recording an instruction fault -/

/-- A step on an issued recording is `RecordInstructionFault` on the state without that operation (20_memory.md rule
R45), and a recording completes exactly where the spec gives it a meaning (60_exceptions.md rules R70, R77; 10_state.md
rules R11, R13): with the register and the target present and a code for the fault it answers a next state in which at
most the target and the count of draws differ; otherwise it is refused under the name of the first thing missing. The
queue is the model's choice (notes/assumptions/1.md); the refusals are the spec's own decision D12 and the model's
names for them (notes/assumptions/12.md and 27.md). -/
def Obligations.RecordingCompletesOrIsRefusedByName : Prop :=
  (∀ (r : FaultReport) (s : State) (rest : List Request), s.inbox = .recordFault r :: rest →
    step s = recordInstructionFault r { s with inbox := rest }) ∧
  (∀ (r : FaultReport) (s : State),
    (s.params.featAA32EL1 = false → recordInstructionFault r s = .refused .registerAbsent) ∧
    (s.params.featAA32EL1 = true → instanceExists s.params r.target = false →
      recordInstructionFault r s = .refused .noSuchInstance) ∧
    (instanceExists s.params r.target = true → NoCode s.params r.eae r.fault →
      recordInstructionFault r s = .refused .noCodeInLayout) ∧
    (instanceExists s.params r.target = true → ¬NoCode s.params r.eae r.fault →
      ∃ v k, recordInstructionFault r s = .next { s with cells := bankSet s.cells r.target v, draws := k }))

/-- 60_exceptions.md rule R77: the faults the chosen layout cannot express, and only those, are refused for want of a
code. The refusal is the spec's own decision D12 (notes/assumptions/12.md). -/
def Obligations.FaultsWithoutACodeAreRefused : Prop :=
  ∀ (r : FaultReport) (s : State), instanceExists s.params r.target = true →
    (recordInstructionFault r s = .refused .noCodeInLayout ↔ NoCode s.params r.eae r.fault)

/-- 60_exceptions.md rule R72: a recording writes the code that the table row of the fault gives, in FS or in STATUS by
the layout; a row that needs FEAT_RAS absent is written only then, the Lockdown fault only where the implementation has
it, and never a reserved value. Rule R72 rests in part on the spec's own decisions D11 and D27
(notes/assumptions/12.md). -/
def Obligations.TheRecordedCodeIsTheTabulatedOne : Prop :=
  ∀ (r : FaultReport) (s t : State), Synchronised r.target s → recordInstructionFault r s = .next t →
    (r.eae = 0#1 → ∃ st, (r.fault, some (fieldFS (cellRead r.target t)), st) ∈ kindRows) ∧
    (r.eae = 1#1 → ∃ fs, (r.fault, fs, some (fieldSTATUS (cellRead r.target t))) ∈ kindRows) ∧
    (ParityKind r.fault → s.params.featRAS = false) ∧
    (r.fault = .lockdown → s.params.hasLockdownFault = true) ∧
    (r.eae = 0#1 → shortKind s.params (fieldFS (cellRead r.target t)) ≠ .reserved) ∧
    (r.eae = 1#1 → longKind s.params (fieldSTATUS (cellRead r.target t)) ≠ .reserved)

/-- 60_exceptions.md rule R73: FnV is written 1 exactly for a synchronous External abort not on a walk whose IFAR is
not valid. That the bit is written 0 otherwise is the spec's own decision D7 (notes/assumptions/10.md). -/
def Obligations.TheRecordedFnVSaysWhetherIFARIsValid : Prop :=
  ∀ (r : FaultReport) (s t : State), Synchronised r.target s → recordInstructionFault r s = .next t →
    fieldFnV (cellRead r.target t) =
      if r.fault = .syncExternal then (if r.ifarValid = true then 0#1 else 1#1) else 0#1

/-- 60_exceptions.md rule R74: ExT is 0 without a classification; under one it is the class of an External abort, a
fresh draw for a parity or ECC kind, and 0 for every other fault. Only that case draws. Which faults are External
aborts is the spec's own decision D13 (notes/assumptions/13.md). That the draw is the one numbered by the count of
draws, and that the count moves by one, is the model's own way to name a free value and nothing of the hardware
(notes/assumptions/6.md). -/
def Obligations.TheRecordedExTIsTheClassOfTheAbort : Prop :=
  ∀ (r : FaultReport) (s t : State), Synchronised r.target s → recordInstructionFault r s = .next t →
    (s.params.extClassified = false → fieldExT (cellRead r.target t) = 0#1 ∧ t.draws = s.draws) ∧
    (s.params.extClassified = true → (r.fault = .syncExternal ∨ ∃ l, r.fault = .syncExternalTTW l) →
      fieldExT (cellRead r.target t) = Config.extClass r.abortInfo ∧ t.draws = s.draws) ∧
    (s.params.extClassified = true → ParityKind r.fault →
      fieldExT (cellRead r.target t) = Config.draw1 s.draws ∧ t.draws = s.draws + 1) ∧
    (s.params.extClassified = true → ¬(r.fault = .syncExternal ∨ ∃ l, r.fault = .syncExternalTTW l) →
      ¬ParityKind r.fault → fieldExT (cellRead r.target t) = 0#1 ∧ t.draws = s.draws)

/-- 60_exceptions.md rule R75: LPAE is written 0 in the short layout and 1 in the long layout; that is, LPAE is `eae`.
It is the spec's own decision D10 (notes/assumptions/9.md). -/
def Obligations.TheRecordedLPAEIsTheLayout : Prop :=
  ∀ (r : FaultReport) (s t : State), Synchronised r.target s → recordInstructionFault r s = .next t →
    fieldLPAE (cellRead r.target t) = r.eae

/-- 60_exceptions.md rule R76: the whole register is replaced. Every bit that is not a field of the chosen layout is 0,
nothing of the previous content survives, the value holds only `WRITABLE` bits, and the other instances are not
written. It is the spec's own decision D7 (notes/assumptions/10.md). -/
def Obligations.ARecordingReplacesTheWholeRegister : Prop :=
  ∀ (r : FaultReport) (s : State),
    (∀ u : Word, recordInstructionFault r (cellWrite r.target u s) = recordInstructionFault r s) ∧
    (∀ t n, recordInstructionFault r s = .next t → n ≠ r.target → cellRead n t = cellRead n s) ∧
    (∀ t, Synchronised r.target s → recordInstructionFault r s = .next t →
      (r.eae = 0#1 → cellRead r.target t &&& 0xFFFEE9F0#32 = 0#32) ∧
      (r.eae = 1#1 → cellRead r.target t &&& 0xFFFEEDC0#32 = 0#32) ∧
      (admissible s.params = true → WithinWritable s.params (cellRead r.target t)))

/-- Round trip of recording and reading (95_test_vectors.md section 2.7, 10_state.md rule R30): decoding a recorded
value with the function of the layout it was composed in gives back the fault, LPAE equal to `eae` and no reserved bit.
The spec marks rule R30 as derived from its tables. -/
def Obligations.ARecordedValueDecodesToItsFault : Prop :=
  ∀ (r : FaultReport) (s t : State), Synchronised r.target s → recordInstructionFault r s = .next t →
    (r.eae = 0#1 → (decodeShort s.params (cellRead r.target t)).kind = .kind r.fault ∧
      (decodeShort s.params (cellRead r.target t)).lpae = 0#1 ∧
      (decodeShort s.params (cellRead r.target t)).res0 = 0#32) ∧
    (r.eae = 1#1 → (decodeLong s.params (cellRead r.target t)).kind = .kind r.fault ∧
      (decodeLong s.params (cellRead r.target t)).lpae = 1#1 ∧
      (decodeLong s.params (cellRead r.target t)).res0 = 0#32)

/-- `SYNC_REQUIRED` (20_memory.md rule R45, 92_eei_decisions.md D16): where it is on, a recording after a software
write into the same instance with no context synchronisation event between leaves the recorded value or the written
one; after a context synchronisation event, or where it is off, it leaves the recorded value. The parameter is the
spec's own; how the model remembers the write is its choice (notes/assumptions/14.md). -/
def Obligations.AnUnsynchronisedWriteMayStandAgainstARecording : Prop :=
  (∀ (r : FaultReport) (s t : State), recordInstructionFault r s = .next t →
    ∃ v, recordedValue s.params r (recordedExt r s).1 = some v ∧
      (cellRead r.target t = v ∨
        (s.params.syncRequired = true ∧ bankGet s.unsynced r.target = some (cellRead r.target t)))) ∧
  (∀ (r : FaultReport) (s : State) (w v : Word), s.params.syncRequired = true →
    bankGet s.unsynced r.target = some w → instanceExists s.params r.target = true →
    recordedValue s.params r (recordedExt r s).1 = some v →
    ∃ k t, recordInstructionFault r s = .next t ∧
      cellRead r.target t = if Config.draw1 k = 1#1 then v else w) ∧
  (∀ (n : InstanceName) (s : State), Synchronised n (synchronise s))

/-- Two recordings into one instance leave the status of the second alone (60_exceptions.md rule R86, vector W4): what
the second leaves does not depend on the first, but for the count of draws that a free ExT bit reads. The spec marks
the rule as derived from R76 and R42. -/
def Obligations.TheLastRecordedFaultStands : Prop :=
  ∀ (r1 r2 : FaultReport) (s t1 t2 : State), r1.target = r2.target → Synchronised r2.target s →
    (s.params.extClassified = false ∨ ¬ParityKind r2.fault) →
    recordInstructionFault r1 s = .next t1 → recordInstructionFault r2 t1 = .next t2 →
    ∃ u, recordInstructionFault r2 s = .next u ∧ cellRead r2.target t2 = cellRead r2.target u

/-! ## Tables and layouts -/

/-- 10_state.md rule R31: the 27 fault kinds, each once, with the FS and STATUS values of the table, for every kind on
every implementation that has it: a parity or ECC kind has codes only where FEAT_RAS is not implemented, and the
Lockdown fault only where `HAS_LOCKDOWN_FAULT` (60_exceptions.md rule R72, the spec's own decision D27:
notes/assumptions/12.md). That the same words in the two tables name one fault is the spec's own reading
(notes/assumptions/30.md). -/
def Obligations.EveryFaultKindHasItsTabulatedCodes : Prop :=
  kindRows.length = 27 ∧ (kindRows.map (fun row => row.1)).Nodup ∧
  (∀ k : FaultKind, k ∈ kindRows.map (fun row => row.1)) ∧
  ∀ p : Params, ∀ row ∈ kindRows,
    ((p.featRAS = false ∨ ¬ParityKind row.1) → (p.hasLockdownFault = true ∨ row.1 ≠ .lockdown) →
      shortCode p row.1 = row.2.1 ∧ longCode p row.1 = row.2.2) ∧
    (p.featRAS = true → ParityKind row.1 → shortCode p row.1 = none ∧ longCode p row.1 = none) ∧
    (p.hasLockdownFault = false → row.1 = .lockdown → shortCode p row.1 = none ∧ longCode p row.1 = none)

/-- 10_state.md rule R20: the reserved FS values, 14, or 17 with FEAT_RAS. The spec marks the rule as derived from rule
R19. -/
def Obligations.ReservedFSValuesAreTheListedOnes : Prop :=
  ∀ (p : Params) (fs : BitVec 5),
    shortKind p fs = .reserved ↔
      (fs ∈ [0b00000#5, 0b00100#5, 0b01010#5, 0b10001#5, 0b10010#5, 0b10011#5, 0b10101#5, 0b10110#5, 0b10111#5,
        0b11000#5, 0b11010#5, 0b11011#5, 0b11101#5, 0b11111#5] ∨
        (p.featRAS = true ∧ fs ∈ [0b11001#5, 0b11100#5, 0b11110#5]))

/-- 10_state.md rule R24: the reserved STATUS values, 40, or 44 with FEAT_RAS. The spec marks the rule as derived from
rule R23. -/
def Obligations.ReservedSTATUSValuesAreTheListedOnes : Prop :=
  ∀ (p : Params) (st : BitVec 6),
    longKind p st = .reserved ↔
      (st ∈ [0b000100#6, 0b001000#6, 0b001100#6, 0b010001#6, 0b010010#6, 0b010011#6, 0b010100#6, 0b011001#6,
        0b011010#6, 0b011011#6, 0b011100#6, 0b100000#6] ∨
        (0b100011#6 ≤ st ∧ st ≤ 0b101111#6) ∨ 0b110001#6 ≤ st ∨
        (p.featRAS = true ∧ st ∈ [0b011000#6, 0b011101#6, 0b011110#6, 0b011111#6]))

/-- 10_state.md rules R19, R23, R30: reading a code and writing one agree: the code written for a fault is the one whose
reading is that fault, on every implementation that can raise it. -/
def Obligations.CodesAndKindsAgree : Prop :=
  ∀ (p : Params) (k : FaultKind), (k = .lockdown → p.hasLockdownFault = true) →
    (∀ fs, shortCode p k = some fs ↔ shortKind p fs = .kind k) ∧
    (∀ st, longCode p k = some st ↔ longKind p st = .kind k)

/-- 10_state.md rules R16, R22, R30: each layout covers all 32 bits: a stored value is determined by what either decode
makes of it, fields and reserved bits together. -/
def Obligations.EitherLayoutCoversEveryBit : Prop :=
  ∀ (p : Params) (v w : Word),
    (decodeShort p v = decodeShort p w → v = w) ∧ (decodeLong p v = decodeLong p w → v = w)

/-- 10_state.md rule R25: the masks of the two layouts, bit by bit: fields and reserved bits part the word, bit 10 is a
field of the short layout only, and bits 5 and 4 of the long layout only. The spec marks the rule as derived from rules
R16, R18 and R22. -/
def Obligations.TheMasksPartTheWord : Prop :=
  fieldsShort ||| res0Short = BitVec.allOnes 32 ∧ fieldsShort &&& res0Short = 0#32 ∧
  fieldsLong ||| res0Long = BitVec.allOnes 32 ∧ fieldsLong &&& res0Long = 0#32 ∧
  fieldsAny = 0x0001163F#32 ∧ res0Both = 0xFFFEE9C0#32 ∧
  (∀ i : Fin 32, fieldsShort.getLsbD i = true ↔ (i.val = 16 ∨ i.val = 12 ∨ i.val = 10 ∨ i.val = 9 ∨ i.val ≤ 3)) ∧
  (∀ i : Fin 32, fieldsLong.getLsbD i = true ↔ (i.val = 16 ∨ i.val = 12 ∨ i.val = 9 ∨ i.val ≤ 5))

/-! ## Reset -/

/-- 70_reset_and_hazards.md rules R90, R91: any reset gives each existing instance a draw of its own, fresh and masked
by `WRITABLE`, and leaves the place of an absent one alone. That every reset is a Warm reset, and the mask, are the
spec's own decision D17 (notes/assumptions/5.md and 21.md). That a draw is fresh by its number in the count of draws is
the model's own (notes/assumptions/6.md), and that the context with its level, `R[t]`, the queue, the outcome and the
unsynchronised values stay through a reset is the model's choice (notes/assumptions/31.md). -/
def Obligations.AResetDrawsEachExistingInstance : Prop :=
  ∀ (kind : ResetKind) (s : State), ∃ d : InstanceName → Nat,
    (∀ n, instanceExists s.params n = true →
      s.draws ≤ d n ∧ d n < (performReset kind s).draws ∧
      cellRead n (performReset kind s) = Config.draw32 (d n) &&& s.params.writable) ∧
    (∀ n m, instanceExists s.params n = true → instanceExists s.params m = true → n ≠ m → d n ≠ d m) ∧
    (∀ n, instanceExists s.params n = false → cellRead n (performReset kind s) = cellRead n s) ∧
    performReset kind s =
      { s with cells := (performReset kind s).cells, draws := (performReset kind s).draws }

/-- The machine after reset: each instance holds a draw of its own masked by `WRITABLE` (70_reset_and_hazards.md rules
R90, R92). The rest is the model's choice: the parameters that make all three instances exist (notes/assumptions/2.md),
the numbers of the draws below the count of draws (notes/assumptions/6.md), that nothing has been issued
(notes/assumptions/1.md) and that no access has returned an outcome (notes/assumptions/7.md). -/
def Obligations.AfterResetEveryInstanceHoldsADraw : Prop :=
  (∀ n, instanceExists State.reset.params n = true) ∧
  (∃ d : InstanceName → Nat, (∀ n m, d n = d m → n = m) ∧
    ∀ n, d n < State.reset.draws ∧ cellRead n State.reset = Config.draw32 (d n) &&& State.reset.params.writable) ∧
  State.reset.inbox = [] ∧ State.reset.outcome = none

/-! ## Invariants and rules of the whole machine -/

/-- The invariant holds at reset (00_scope.md rule R4, 70_reset_and_hazards.md rule R90). The parameters there are the
model's choice (notes/assumptions/2.md). -/
def Obligations.ResetMeetsTheInvariant : Prop := SafeState State.reset

/-- Every step keeps the invariant: `WRITABLE` meets its constraint, every cell holds only `WRITABLE` bits whatever
software, the hardware or a reset stored, an absent instance holds nothing, and a trap carries 0x03 (10_state.md rules
R11, R13, R26; 60_exceptions.md rule R76; 70_reset_and_hazards.md rule R90; 40_sysreg_access.md rule R62). That an
absent instance keeps a place, at zero, is the model's choice (notes/assumptions/24.md). -/
def Obligations.EveryStepKeepsTheInvariant : Prop :=
  ∀ s t : State, SafeState s → step s = .next t → SafeState t

/-- Every step either answers a next state with the implementation parameters of 00_scope.md rule R4 as they were, or
is a refusal, and then for one of the reasons the spec gives: words that are no accessor (30_encoding.md rule R56),
register 15 (rule R55), an instance that does not exist (10_state.md rule R12), a failed condition on an access that
would end in an exception (30_encoding.md rule R57), and for a recording the register absent, the target absent or no
code (10_state.md rules R11, R13; 60_exceptions.md rule R77). So no step is a fault, of which the machine has none (the
type Fault has no constructor: notes/assumptions/7.md). The names of the refusals of a recording and of words are the
model's (notes/assumptions/27.md). -/
def Obligations.ParametersAreFixedAndNoStepFaults : Prop :=
  ∀ s : State,
    (∃ t, step s = .next t ∧ t.params = s.params) ∨
    (∃ why rest, step s = .refused why ∧
      ((∃ w e, s.inbox = .instruction w :: rest ∧ decode w = .error e ∧ why = .notIFSR e) ∨
        (∃ w i, s.inbox = .instruction w :: rest ∧ decode w = .ok i ∧
          ((why = .rtIs15 ∧ rtField i = 15#4) ∨
            (why = .noSuchInstance ∧ ∃ inst, accessDecision s.params s.ctx (direction i) = .access inst ∧
              instanceExists s.params inst = false) ∨
            (why = .conditionFailedOnNonOkAccess ∧ s.ctx.condPassed = false ∧
              ∃ e, accessDecision s.params s.ctx (direction i) = .exception e))) ∨
        (∃ r, s.inbox = .recordFault r :: rest ∧
          ((why = .registerAbsent ∧ s.params.featAA32EL1 = false) ∨
            (why = .noSuchInstance ∧ instanceExists s.params r.target = false) ∨
            (why = .noCodeInLayout ∧ NoCode s.params r.eae r.fault)))))

/-- 60_exceptions.md rule R86: a status stays until the next recorded fault into that instance, the next `MCR` that
reaches it, or a reset: no other step changes a cell; in particular no read does. The spec marks the rule as derived
from R76 and R42. -/
def Obligations.OnlyAWriteARecordingOrAResetChangesACell : Prop :=
  ∀ (s t : State) (n : InstanceName), step s = .next t → cellRead n t ≠ cellRead n s →
    ∃ rest,
      (∃ w i, s.inbox = .instruction w :: rest ∧ decode w = .ok i ∧ direction i = .write ∧
        Reaches s.params s.ctx .write n ∧ s.ctx.condPassed = true) ∨
      (∃ r, s.inbox = .recordFault r :: rest ∧ r.target = n) ∨
      (∃ kind, s.inbox = .reset kind :: rest ∧ instanceExists s.params n = true)

/-- Only a read that reaches an instance, or the PE's other instructions, change a general register, and a read puts
the reached instance's value there (40_sysreg_access.md rules R60, R61, R63). That a change of context changes none is
the model's choice of one unbanked set of registers (notes/assumptions/33.md), and that a reset changes none is the
model's choice too (notes/assumptions/31.md; 70_reset_and_hazards.md rule R90 resets nothing else in scope). -/
def Obligations.OnlyAReadOrTheOtherInstructionsChangeARegister : Prop :=
  ∀ (s t : State) (k : Fin 15), step s = .next t → t.regs[k] ≠ s.regs[k] →
    ∃ rest,
      (∃ w i inst, s.inbox = .instruction w :: rest ∧ decode w = .ok i ∧ direction i = .read ∧
        (rtField i).toNat = k.val ∧ Reaches s.params s.ctx .read inst ∧ t.regs[k] = cellRead inst s) ∨
      (∃ v, s.inbox = .register k v :: rest ∧ t.regs[k] = v)

/-- 10_state.md rules R21, R26: no stored bit of IFSR has any effect on anything but what a read returns. Run the same
step on other contents of the cells: it answers alike, with the same outcome, inputs, draws and queue, with the same
registers unless it is a read, and with each cell either the same in both runs or in each run as it was before. -/
def Obligations.StoredBitsAffectOnlyWhatAReadReturns : Prop :=
  ∀ (s : State) (c : Banked Word),
    (∀ r, step s = .refused r ↔ step { s with cells := c } = .refused r) ∧
    (∀ t, step s = .next t → ∃ t', step { s with cells := c } = .next t' ∧
      t'.params = t.params ∧ t'.ctx = t.ctx ∧ t'.unsynced = t.unsynced ∧ t'.outcome = t.outcome ∧
      t'.draws = t.draws ∧ t'.inbox = t.inbox ∧
      (∀ n, bankGet t'.cells n = bankGet t.cells n ∨
        (bankGet t.cells n = bankGet s.cells n ∧ bankGet t'.cells n = bankGet c n)) ∧
      ((∀ w rest i, s.inbox = .instruction w :: rest → decode w = .ok i → direction i = .write) → t'.regs = t.regs))

/-! ## The bits of the two layouts -/

/-- 10_state.md rules R16, R22: the bit assignment of the short and of the long layout, all 32 bits of each: where every
bit of FnV, ExT, LPAE, FS and STATUS stands in a stored value, and which bits are reserved. -/
def Obligations.EachLayoutAssignsTheBitsOfItsTable : Prop :=
  ∀ (p : Params) (v : Word),
    ((decodeShort p v).fnv.getLsbD 0 = v.getLsbD 16 ∧ (decodeShort p v).ext.getLsbD 0 = v.getLsbD 12 ∧
      (decodeShort p v).lpae.getLsbD 0 = v.getLsbD 9 ∧ (decodeShort p v).fs.getLsbD 4 = v.getLsbD 10 ∧
      (∀ k < 4, (decodeShort p v).fs.getLsbD k = v.getLsbD k) ∧
      (∀ k < 32, (decodeShort p v).res0.getLsbD k = true ↔
        (v.getLsbD k = true ∧ (17 ≤ k ∨ (13 ≤ k ∧ k ≤ 15) ∨ k = 11 ∨ (4 ≤ k ∧ k ≤ 8))))) ∧
    ((decodeLong p v).fnv.getLsbD 0 = v.getLsbD 16 ∧ (decodeLong p v).ext.getLsbD 0 = v.getLsbD 12 ∧
      (decodeLong p v).lpae.getLsbD 0 = v.getLsbD 9 ∧ (∀ k < 6, (decodeLong p v).status.getLsbD k = v.getLsbD k) ∧
      (∀ k < 32, (decodeLong p v).res0.getLsbD k = true ↔
        (v.getLsbD k = true ∧ (17 ≤ k ∨ (13 ≤ k ∧ k ≤ 15) ∨ (10 ≤ k ∧ k ≤ 11) ∨ (6 ≤ k ∧ k ≤ 8)))))
end

