-- ==== Sys2Proof/Laws/Decision.lean ====
section
/-! SUPPORT. What the access pseudocode decides, said once for each of its four answers. -/

namespace Sys2Proof.Laws

open Sys2Proof.Machine Sys2Proof.Safety

theorem bit_ne_one_iff {b : Bit} : ¬b = 1#1 ↔ b = 0#1 := by revert b; decide

theorem bit_ne_zero_iff {b : Bit} : ¬b = 0#1 ↔ b = 1#1 := by revert b; decide

/-- The access is allowed and reaches an instance exactly as the table of 60_exceptions.md rule R83 says. -/
theorem accessDecision_eq_access_iff {p : Params} {c : Context} {dir : Direction} {inst : InstanceName} :
    accessDecision p c dir = .access inst ↔ Reaches p c dir inst := by
  obtain ⟨f, _, _, _, _, _, _, _, _, _, _⟩ := p
  obtain ⟨el, _, _, _, _, _, _, _, _, _, _, _⟩ := c
  cases dir <;> cases el <;> cases f <;>
    simp [accessDecision, Reaches, decisionAtEL1, decisionAtEL2, decisionAtEL3, BelowEL3Reaches, EL3IsAArch32,
      TrappedToAArch64, TrappedToHyp, vmControl64, vmControl32] <;>
    (try split_ifs) <;> (try cases inst) <;> simp_all [bit_ne_one_iff, bit_ne_zero_iff]

/-- The access is `Undefined` exactly without the feature or at EL0 (60_exceptions.md rule R79). -/
theorem accessDecision_eq_undefined_iff {p : Params} {c : Context} {dir : Direction} :
    accessDecision p c dir = .exception .undefined ↔ (p.featAA32EL1 = false ∨ c.el = .el0) := by
  obtain ⟨f, _, _, _, _, _, _, _, _, _, _⟩ := p
  obtain ⟨el, _, _, _, _, _, _, _, _, _, _, _⟩ := c
  cases el <;> cases f <;> simp [accessDecision, decisionAtEL1, decisionAtEL2, decisionAtEL3] <;> split_ifs <;> simp

/-- The access is trapped to an EL2 using AArch64 exactly as 60_exceptions.md rule R81 says. -/
theorem accessDecision_eq_trap64_iff {p : Params} {c : Context} {dir : Direction} {ec : BitVec 8} :
    accessDecision p c dir = .exception (.trapToEL2AArch64 ec) ↔
      (ec = 0x03#8 ∧ p.featAA32EL1 = true ∧ c.el = .el1 ∧ TrappedToAArch64 p c dir) := by
  obtain ⟨f, _, _, _, _, _, _, _, _, _, _⟩ := p
  obtain ⟨el, _, _, _, _, _, _, _, _, _, _, _⟩ := c
  cases dir <;> cases el <;> cases f <;>
    simp [accessDecision, decisionAtEL1, decisionAtEL2, decisionAtEL3, TrappedToAArch64, vmControl64, vmControl32,
      trapArgument] <;>
    (try split_ifs) <;> simp_all [@eq_comm _ (3#8) ec, bit_ne_one_iff]

/-- The access is trapped to an EL2 using AArch32 exactly as 60_exceptions.md rule R80 says. -/
theorem accessDecision_eq_hypTrap_iff {p : Params} {c : Context} {dir : Direction} {ec : BitVec 8} :
    accessDecision p c dir = .exception (.hypTrap ec) ↔
      (ec = 0x03#8 ∧ p.featAA32EL1 = true ∧ c.el = .el1 ∧ TrappedToHyp p c dir) := by
  obtain ⟨f, _, _, _, _, _, _, _, _, _, _⟩ := p
  obtain ⟨el, _, _, _, _, _, _, _, _, _, _, _⟩ := c
  cases dir <;> cases el <;> cases f <;>
    simp [accessDecision, decisionAtEL1, decisionAtEL2, decisionAtEL3, TrappedToHyp, vmControl64, vmControl32,
      trapArgument] <;>
    (try split_ifs) <;> simp_all [@eq_comm _ (3#8) ec, bit_ne_one_iff]

end Sys2Proof.Laws
end

