-- ==== Sys2Proof/Laws/State.lean ====
section
/-! SUPPORT. One lemma for each field of State and each update of it: what the update leaves in the field. -/

namespace Sys2Proof.Laws

open Sys2Proof.Machine

variable (s : State)

/-! ### `cellWrite` -/

@[simp] theorem cellWrite_params (n : InstanceName) (v : Word) : (cellWrite n v s).params = s.params := rfl
@[simp] theorem cellWrite_ctx (n : InstanceName) (v : Word) : (cellWrite n v s).ctx = s.ctx := rfl
@[simp] theorem cellWrite_regs (n : InstanceName) (v : Word) : (cellWrite n v s).regs = s.regs := rfl
@[simp] theorem cellWrite_cells (n : InstanceName) (v : Word) : (cellWrite n v s).cells = bankSet s.cells n v := rfl
@[simp] theorem cellWrite_unsynced (n : InstanceName) (v : Word) : (cellWrite n v s).unsynced = s.unsynced := rfl
@[simp] theorem cellWrite_outcome (n : InstanceName) (v : Word) : (cellWrite n v s).outcome = s.outcome := rfl
@[simp] theorem cellWrite_draws (n : InstanceName) (v : Word) : (cellWrite n v s).draws = s.draws := rfl
@[simp] theorem cellWrite_inbox (n : InstanceName) (v : Word) : (cellWrite n v s).inbox = s.inbox := rfl

/-! ### `softwareWrite` -/

@[simp] theorem softwareWrite_params (n : InstanceName) (v : Word) : (softwareWrite n v s).params = s.params := rfl
@[simp] theorem softwareWrite_ctx (n : InstanceName) (v : Word) : (softwareWrite n v s).ctx = s.ctx := rfl
@[simp] theorem softwareWrite_regs (n : InstanceName) (v : Word) : (softwareWrite n v s).regs = s.regs := rfl
@[simp] theorem softwareWrite_cells (n : InstanceName) (v : Word) :
    (softwareWrite n v s).cells = bankSet s.cells n (storedValue s.params v) := rfl
@[simp] theorem softwareWrite_unsynced (n : InstanceName) (v : Word) :
    (softwareWrite n v s).unsynced = bankSet s.unsynced n (some (storedValue s.params v)) := rfl
@[simp] theorem softwareWrite_outcome (n : InstanceName) (v : Word) : (softwareWrite n v s).outcome = s.outcome := rfl
@[simp] theorem softwareWrite_draws (n : InstanceName) (v : Word) : (softwareWrite n v s).draws = s.draws := rfl
@[simp] theorem softwareWrite_inbox (n : InstanceName) (v : Word) : (softwareWrite n v s).inbox = s.inbox := rfl

/-! ### `regWrite` -/

@[simp] theorem regWrite_params (t : Fin 15) (v : Word) : (regWrite t v s).params = s.params := rfl
@[simp] theorem regWrite_ctx (t : Fin 15) (v : Word) : (regWrite t v s).ctx = s.ctx := rfl
@[simp] theorem regWrite_regs (t : Fin 15) (v : Word) : (regWrite t v s).regs = s.regs.set t v := rfl
@[simp] theorem regWrite_cells (t : Fin 15) (v : Word) : (regWrite t v s).cells = s.cells := rfl
@[simp] theorem regWrite_unsynced (t : Fin 15) (v : Word) : (regWrite t v s).unsynced = s.unsynced := rfl
@[simp] theorem regWrite_outcome (t : Fin 15) (v : Word) : (regWrite t v s).outcome = s.outcome := rfl
@[simp] theorem regWrite_draws (t : Fin 15) (v : Word) : (regWrite t v s).draws = s.draws := rfl
@[simp] theorem regWrite_inbox (t : Fin 15) (v : Word) : (regWrite t v s).inbox = s.inbox := rfl

/-! ### `completeAccess` -/

@[simp] theorem completeAccess_params : (completeAccess s).params = s.params := rfl
@[simp] theorem completeAccess_ctx : (completeAccess s).ctx = s.ctx := rfl
@[simp] theorem completeAccess_regs : (completeAccess s).regs = s.regs := rfl
@[simp] theorem completeAccess_cells : (completeAccess s).cells = s.cells := rfl
@[simp] theorem completeAccess_unsynced : (completeAccess s).unsynced = s.unsynced := rfl
@[simp] theorem completeAccess_outcome : (completeAccess s).outcome = some .ok := rfl
@[simp] theorem completeAccess_draws : (completeAccess s).draws = s.draws := rfl
@[simp] theorem completeAccess_inbox : (completeAccess s).inbox = s.inbox := rfl

/-! ### `takeException` -/

@[simp] theorem takeException_params (e : AccessException) : (takeException e s).params = s.params := rfl
@[simp] theorem takeException_ctx (e : AccessException) : (takeException e s).ctx = s.ctx := rfl
@[simp] theorem takeException_regs (e : AccessException) : (takeException e s).regs = s.regs := rfl
@[simp] theorem takeException_cells (e : AccessException) : (takeException e s).cells = s.cells := rfl
@[simp] theorem takeException_unsynced (e : AccessException) : (takeException e s).unsynced = s.unsynced := rfl
@[simp] theorem takeException_outcome (e : AccessException) : (takeException e s).outcome = some (.exception e) := rfl
@[simp] theorem takeException_draws (e : AccessException) : (takeException e s).draws = s.draws := rfl
@[simp] theorem takeException_inbox (e : AccessException) : (takeException e s).inbox = s.inbox := rfl

/-! ### `setContext` -/

@[simp] theorem setContext_params (c : Context) : (setContext c s).params = s.params := rfl
@[simp] theorem setContext_ctx (c : Context) : (setContext c s).ctx = c := rfl
@[simp] theorem setContext_regs (c : Context) : (setContext c s).regs = s.regs := rfl
@[simp] theorem setContext_cells (c : Context) : (setContext c s).cells = s.cells := rfl
@[simp] theorem setContext_unsynced (c : Context) : (setContext c s).unsynced = s.unsynced := rfl
@[simp] theorem setContext_outcome (c : Context) : (setContext c s).outcome = s.outcome := rfl
@[simp] theorem setContext_draws (c : Context) : (setContext c s).draws = s.draws := rfl
@[simp] theorem setContext_inbox (c : Context) : (setContext c s).inbox = s.inbox := rfl

/-! ### `synchronise` -/

@[simp] theorem synchronise_params : (synchronise s).params = s.params := rfl
@[simp] theorem synchronise_ctx : (synchronise s).ctx = s.ctx := rfl
@[simp] theorem synchronise_regs : (synchronise s).regs = s.regs := rfl
@[simp] theorem synchronise_cells : (synchronise s).cells = s.cells := rfl
@[simp] theorem synchronise_unsynced :
    (synchronise s).unsynced = { ifsr := none, ifsrS := none, ifsrNS := none } := rfl
@[simp] theorem synchronise_outcome : (synchronise s).outcome = s.outcome := rfl
@[simp] theorem synchronise_draws : (synchronise s).draws = s.draws := rfl
@[simp] theorem synchronise_inbox : (synchronise s).inbox = s.inbox := rfl

/-! ### `issueFirst` -/

@[simp] theorem issueFirst_params (r : Request) : (issueFirst r s).params = s.params := rfl
@[simp] theorem issueFirst_ctx (r : Request) : (issueFirst r s).ctx = s.ctx := rfl
@[simp] theorem issueFirst_regs (r : Request) : (issueFirst r s).regs = s.regs := rfl
@[simp] theorem issueFirst_cells (r : Request) : (issueFirst r s).cells = s.cells := rfl
@[simp] theorem issueFirst_unsynced (r : Request) : (issueFirst r s).unsynced = s.unsynced := rfl
@[simp] theorem issueFirst_outcome (r : Request) : (issueFirst r s).outcome = s.outcome := rfl
@[simp] theorem issueFirst_draws (r : Request) : (issueFirst r s).draws = s.draws := rfl
@[simp] theorem issueFirst_inbox (r : Request) : (issueFirst r s).inbox = r :: s.inbox := rfl

/-! ### `drawBit` -/

@[simp] theorem drawBit_snd_params : (drawBit s).2.params = s.params := rfl
@[simp] theorem drawBit_snd_ctx : (drawBit s).2.ctx = s.ctx := rfl
@[simp] theorem drawBit_snd_regs : (drawBit s).2.regs = s.regs := rfl
@[simp] theorem drawBit_snd_cells : (drawBit s).2.cells = s.cells := rfl
@[simp] theorem drawBit_snd_unsynced : (drawBit s).2.unsynced = s.unsynced := rfl
@[simp] theorem drawBit_snd_outcome : (drawBit s).2.outcome = s.outcome := rfl
@[simp] theorem drawBit_snd_draws : (drawBit s).2.draws = s.draws + 1 := rfl
@[simp] theorem drawBit_snd_inbox : (drawBit s).2.inbox = s.inbox := rfl

/-! ### `drawWord` -/

@[simp] theorem drawWord_snd_params : (drawWord s).2.params = s.params := rfl
@[simp] theorem drawWord_snd_ctx : (drawWord s).2.ctx = s.ctx := rfl
@[simp] theorem drawWord_snd_regs : (drawWord s).2.regs = s.regs := rfl
@[simp] theorem drawWord_snd_cells : (drawWord s).2.cells = s.cells := rfl
@[simp] theorem drawWord_snd_unsynced : (drawWord s).2.unsynced = s.unsynced := rfl
@[simp] theorem drawWord_snd_outcome : (drawWord s).2.outcome = s.outcome := rfl
@[simp] theorem drawWord_snd_draws : (drawWord s).2.draws = s.draws + 1 := rfl
@[simp] theorem drawWord_snd_inbox : (drawWord s).2.inbox = s.inbox := rfl

end Sys2Proof.Laws
end

