-- ==== Sys2Proof/Laws/Ops.lean ====
section
/-! SUPPORT. What each shared operation can do, said once: the instances, the general registers, the free values, the
code tables, recording and reset. -/

namespace Sys2Proof.Laws

open Sys2Proof.Machine Sys2Proof.Safety

/-! ### Instances -/

@[simp] theorem bankGet_bankSet_same {α : Type} (b : Banked α) (n : InstanceName) (v : α) :
    bankGet (bankSet b n v) n = v := by cases n <;> rfl

theorem bankGet_bankSet_other {α : Type} (b : Banked α) {n m : InstanceName} (v : α) (h : m ≠ n) :
    bankGet (bankSet b n v) m = bankGet b m := by cases n <;> cases m <;> first | rfl | exact absurd rfl h

theorem bankGet_bankSet {α : Type} (b : Banked α) (n m : InstanceName) (v : α) :
    bankGet (bankSet b n v) m = if m = n then v else bankGet b m := by
  by_cases h : m = n
  · subst h; simp
  · simp [h, bankGet_bankSet_other b v h]

@[simp] theorem bankSet_bankSet {α : Type} (b : Banked α) (n : InstanceName) (v w : α) :
    bankSet (bankSet b n v) n w = bankSet b n w := by cases n <;> rfl

theorem banked_ext {α : Type} {a b : Banked α} (h : ∀ n, bankGet a n = bankGet b n) : a = b := by
  obtain ⟨x, y, z⟩ := a
  obtain ⟨x', y', z'⟩ := b
  have h1 := h .ifsr
  have h2 := h .ifsrS
  have h3 := h .ifsrNS
  simp_all [bankGet]

@[simp] theorem cellRead_cellWrite_same (n : InstanceName) (v : Word) (s : State) :
    cellRead n (cellWrite n v s) = v := by simp [cellRead]

theorem cellRead_cellWrite_other {n m : InstanceName} (v : Word) (s : State) (h : m ≠ n) :
    cellRead m (cellWrite n v s) = cellRead m s := by simp [cellRead, bankGet_bankSet_other _ _ h]

@[simp] theorem cellWrite_cellWrite (n : InstanceName) (v w : Word) (s : State) :
    cellWrite n w (cellWrite n v s) = cellWrite n w s := by simp [cellWrite]

@[simp] theorem cellRead_softwareWrite_same (n : InstanceName) (v : Word) (s : State) :
    cellRead n (softwareWrite n v s) = storedValue s.params v := by simp [cellRead]

theorem cellRead_softwareWrite_other {n m : InstanceName} (v : Word) (s : State) (h : m ≠ n) :
    cellRead m (softwareWrite n v s) = cellRead m s := by simp [cellRead, bankGet_bankSet_other _ _ h]

/-- An instance that exists is one of an implementation that has the register (10_state.md rules R11, R13). -/
theorem present_of_instanceExists {p : Params} {n : InstanceName} (h : instanceExists p n = true) :
    p.featAA32EL1 = true := by
  simp only [instanceExists, Bool.and_eq_true] at h
  exact h.1

/-- A stored value holds only `WRITABLE` bits (10_state.md rule R26). -/
theorem withinWritable_storedValue (p : Params) (v : Word) : WithinWritable p (storedValue p v) := by
  simp [WithinWritable, storedValue, BitVec.and_assoc]

theorem withinWritable_zero (p : Params) : WithinWritable p 0#32 := by simp [WithinWritable]

/-! ### General registers -/

@[simp] theorem generalRegister_fifteen : generalRegister 15#4 = none := by decide

/-- The register an admitted field names is the one of its unsigned value (30_encoding.md rule R55). -/
theorem generalRegister_of_lt {rt : BitVec 4} (h : rt.toNat < 15) : generalRegister rt = some ⟨rt.toNat, h⟩ := by
  simp [generalRegister, h]

theorem generalRegister_eq_none_iff {rt : BitVec 4} : generalRegister rt = none ↔ rt = 15#4 := by
  revert rt; decide

@[simp] theorem regRead_regWrite_same (t : Fin 15) (v : Word) (s : State) : regRead t (regWrite t v s) = v := by
  simp [regRead]

theorem regRead_regWrite_other {t k : Fin 15} (v : Word) (s : State) (h : k ≠ t) :
    regRead k (regWrite t v s) = regRead k s := by
  have hv : t.val ≠ k.val := fun e => h (Fin.ext e.symm)
  simp [regRead, hv]

/-! ### The queue of issued operations -/

theorem takeRequest_nil {s : State} (h : s.inbox = []) : takeRequest s = none := by simp [takeRequest, h]

theorem takeRequest_cons {s : State} {r : Request} {rest : List Request} (h : s.inbox = r :: rest) :
    takeRequest s = some (r, { s with inbox := rest }) := by simp [takeRequest, h]

/-! ### Recording -/

/-- What the ExT bit of a recording is, and that a draw is all it can change (60_exceptions.md rule R74). -/
theorem recordedExt_cases (r : FaultReport) (s : State) :
    (s.params.extClassified = false ∧ recordedExt r s = (0#1, s)) ∨
      (s.params.extClassified = true ∧ isExternalAbort r.fault = true ∧
        recordedExt r s = (Config.extClass r.abortInfo, s)) ∨
      (s.params.extClassified = true ∧ isExternalAbort r.fault = false ∧ isParity r.fault = true ∧
        recordedExt r s = drawBit s) ∨
      (s.params.extClassified = true ∧ isExternalAbort r.fault = false ∧ isParity r.fault = false ∧
        recordedExt r s = (0#1, s)) := by
  unfold recordedExt
  cases s.params.extClassified <;> cases isExternalAbort r.fault <;> cases isParity r.fault <;> simp

/-- The state after the ExT bit is settled differs at most in the count of draws. -/
theorem recordedExt_state (r : FaultReport) (s : State) :
    ∃ k, (recordedExt r s).2 = { s with draws := k } := by
  rcases recordedExt_cases r s with ⟨_, h⟩ | ⟨_, _, h⟩ | ⟨_, _, _, h⟩ | ⟨_, _, _, h⟩
  · exact ⟨s.draws, by rw [h]⟩
  · exact ⟨s.draws, by rw [h]⟩
  · exact ⟨s.draws + 1, by rw [h]; rfl⟩
  · exact ⟨s.draws, by rw [h]⟩

/-- The value left by a recording is the recorded one or an unsynchronised written one, and a draw is all it can
change besides (20_memory.md rule R45). -/
theorem valueLeft_cases (n : InstanceName) (v : Word) (s : State) :
    valueLeft n v s = (v, s) ∨
      ∃ w, s.params.syncRequired = true ∧ bankGet s.unsynced n = some w ∧
        ((valueLeft n v s).1 = v ∨ (valueLeft n v s).1 = w) ∧ (valueLeft n v s).2 = (drawBit s).2 := by
  unfold valueLeft
  cases hs : s.params.syncRequired with
  | false => exact .inl rfl
  | true =>
    cases hu : bankGet s.unsynced n with
    | none => exact .inl rfl
    | some w =>
      refine .inr ⟨w, rfl, rfl, ?_, rfl⟩
      dsimp only
      split
      · exact .inl rfl
      · exact .inr rfl

theorem valueLeft_synchronised {n : InstanceName} {v : Word} {s : State} (h : Synchronised n s) :
    valueLeft n v s = (v, s) := by
  rcases valueLeft_cases n v s with hv | ⟨w, hs, hu, _, _⟩
  · exact hv
  · rcases h with h | h
    · rw [h] at hs; cases hs
    · rw [h] at hu; cases hu

/-- All that a recording which answers a next state can do: the target takes the recorded value or, under
`SYNC_REQUIRED`, an unsynchronised written one; beyond that only the count of draws moves (60_exceptions.md rules R70,
R76). -/
theorem recordInstructionFault_next {r : FaultReport} {s t : State}
    (h : recordInstructionFault r s = .next t) :
    instanceExists s.params r.target = true ∧
      ∃ v, recordedValue s.params r (recordedExt r s).1 = some v ∧
        ∃ w k, t = { cellWrite r.target w s with draws := k } ∧
          (w = v ∨ (s.params.syncRequired = true ∧ bankGet s.unsynced r.target = some w)) := by
  unfold recordInstructionFault at h
  split at h
  · split at h
    · rename_i he
      refine ⟨he, ?_⟩
      split at h
      · rename_i v hv
        refine ⟨v, hv, ?_⟩
        obtain ⟨k, hk⟩ := recordedExt_state r s
        injection h with h
        subst h
        unfold storeRecorded
        rw [hk]
        rcases valueLeft_cases r.target v { s with draws := k } with hl | ⟨w, hs, hu, hw, h2⟩
        · exact ⟨v, k, by rw [hl]; rfl, .inl rfl⟩
        · refine ⟨_, k + 1, by rw [h2]; rfl, ?_⟩
          rcases hw with hw | hw
          · exact .inl hw
          · exact .inr ⟨hs, by rw [hw]; exact hu⟩
      · cases h
    · cases h
  · cases h

/-- The ExT bit of a recording, and the state after it, read no cell (10_state.md rules R21, R26). -/
theorem recordedExt_cells (r : FaultReport) (s : State) (c : Banked Word) :
    recordedExt r { s with cells := c } = ((recordedExt r s).1, { (recordedExt r s).2 with cells := c }) := by
  unfold recordedExt
  cases s.params.extClassified <;> cases isExternalAbort r.fault <;> cases isParity r.fault <;> simp [drawBit]

/-- All that a refused recording says: the register or the target is absent, or no value can be composed
(60_exceptions.md rules R70, R77). -/
theorem recordInstructionFault_refused {r : FaultReport} {s : State} {why : Refusal}
    (h : recordInstructionFault r s = .refused why) :
    (why = .registerAbsent ∧ s.params.featAA32EL1 = false) ∨
      (why = .noSuchInstance ∧ instanceExists s.params r.target = false) ∨
      (why = .noCodeInLayout ∧ recordedValue s.params r (recordedExt r s).1 = none) := by
  unfold recordInstructionFault at h
  split at h
  · split at h
    · split at h
      · cases h
      · injection h with h; exact .inr (.inr ⟨h.symm, ‹_›⟩)
    · injection h with h; exact .inr (.inl ⟨h.symm, Bool.eq_false_iff.mpr ‹_›⟩)
  · injection h with h; exact .inl ⟨h.symm, Bool.eq_false_iff.mpr ‹_›⟩

/-! ### Reset -/

/-- What the reset of one instance does: nothing where it is absent; otherwise one draw, masked by `WRITABLE`
(70_reset_and_hazards.md rule R90). -/
theorem resetCell_cases (n : InstanceName) (s : State) :
    (instanceExists s.params n = false ∧ resetCell n s = s) ∨
      (instanceExists s.params n = true ∧
        resetCell n s = { cellWrite n (Config.draw32 s.draws &&& s.params.writable) s with draws := s.draws + 1 }) := by
  unfold resetCell
  cases instanceExists s.params n
  · exact .inl ⟨rfl, rfl⟩
  · exact .inr ⟨rfl, rfl⟩

/-- Both kinds of reset are the one operation (70_reset_and_hazards.md rule R91). -/
@[simp] theorem performReset_eq (kind : ResetKind) (s : State) : performReset kind s = warmReset s := by
  cases kind <;> rfl

end Sys2Proof.Laws
end

