-- ==== Sys2Proof/Laws/Access.lean ====
section
/-! SUPPORT. What an access and a step can do, said once. -/

namespace Sys2Proof.Laws

open Sys2Proof.Machine Sys2Proof.Safety

/-- A one-bit value that is not 0 is 1. -/
theorem bit_eq_one_of_ne_zero {b : Bit} (h : b ≠ 0#1) : b = 1#1 := by
  revert b; decide

/-- An access by either instruction of a direction is the one operation of that direction (40_sysreg_access.md rule
R64). -/
theorem exec_eq (i : Instr) (s : State) :
    exec i s = match direction i with
      | .read => readIFSR (rtField i) s
      | .write => writeIFSR (rtField i) s := by
  cases i <;> rfl

/-- Everything a read can answer (40_sysreg_access.md rules R60, R62, R64). -/
theorem readIFSR_cases (rt : BitVec 4) (s : State) :
    (rt = 15#4 ∧ readIFSR rt s = .refused .rtIs15) ∨
      ∃ h : rt.toNat < 15,
        (∃ e, accessDecision s.params s.ctx .read = .exception e ∧
          readIFSR rt s = if s.ctx.condPassed then .next (takeException e s)
            else .refused .conditionFailedOnNonOkAccess) ∨
        (∃ n, accessDecision s.params s.ctx .read = .access n ∧ instanceExists s.params n = false ∧
          readIFSR rt s = .refused .noSuchInstance) ∨
        (∃ n, accessDecision s.params s.ctx .read = .access n ∧ instanceExists s.params n = true ∧
          readIFSR rt s = .next (completeAccess
            (if s.ctx.condPassed then regWrite ⟨rt.toNat, h⟩ (cellRead n s) s else s))) := by
  by_cases h15 : rt = 15#4
  · left
    subst h15
    exact ⟨rfl, by simp [readIFSR]⟩
  · right
    have h : rt.toNat < 15 := by
      have h1 := rt.isLt
      have h2 : rt.toNat ≠ 15 := fun e => h15 (BitVec.eq_of_toNat_eq (by simpa using e))
      omega
    refine ⟨h, ?_⟩
    unfold readIFSR
    rw [generalRegister_of_lt h]
    cases hd : accessDecision s.params s.ctx .read with
    | exception e => exact .inl ⟨e, rfl, rfl⟩
    | access n =>
      cases he : instanceExists s.params n
      · exact .inr (.inl ⟨n, rfl, he, by simp [he]⟩)
      · exact .inr (.inr ⟨n, rfl, he, by simp [he, okUnderCondition]⟩)

/-- Everything a write can answer (40_sysreg_access.md rules R61, R62, R64). -/
theorem writeIFSR_cases (rt : BitVec 4) (s : State) :
    (rt = 15#4 ∧ writeIFSR rt s = .refused .rtIs15) ∨
      ∃ h : rt.toNat < 15,
        (∃ e, accessDecision s.params s.ctx .write = .exception e ∧
          writeIFSR rt s = if s.ctx.condPassed then .next (takeException e s)
            else .refused .conditionFailedOnNonOkAccess) ∨
        (∃ n, accessDecision s.params s.ctx .write = .access n ∧ instanceExists s.params n = false ∧
          writeIFSR rt s = .refused .noSuchInstance) ∨
        (∃ n, accessDecision s.params s.ctx .write = .access n ∧ instanceExists s.params n = true ∧
          writeIFSR rt s = .next (completeAccess
            (if s.ctx.condPassed then softwareWrite n (regRead ⟨rt.toNat, h⟩ s) s else s))) := by
  by_cases h15 : rt = 15#4
  · left
    subst h15
    exact ⟨rfl, by simp [writeIFSR]⟩
  · right
    have h : rt.toNat < 15 := by
      have h1 := rt.isLt
      have h2 : rt.toNat ≠ 15 := fun e => h15 (BitVec.eq_of_toNat_eq (by simpa using e))
      omega
    refine ⟨h, ?_⟩
    unfold writeIFSR
    rw [generalRegister_of_lt h]
    cases hd : accessDecision s.params s.ctx .write with
    | exception e => exact .inl ⟨e, rfl, rfl⟩
    | access n =>
      cases he : instanceExists s.params n
      · exact .inr (.inl ⟨n, rfl, he, by simp [he]⟩)
      · exact .inr (.inr ⟨n, rfl, he, by simp [he, okUnderCondition]⟩)

/-- What a granted access does to the state, by its direction. -/
def accessEffect (dir : Direction) (t : Fin 15) (n : InstanceName) (s : State) : State :=
  match dir with
  | .read => regWrite t (cellRead n s) s
  | .write => softwareWrite n (regRead t s) s

/-- Everything an access can answer, for every instruction (40_sysreg_access.md rules R62, R64). -/
theorem exec_cases (i : Instr) (s : State) :
    (rtField i = 15#4 ∧ exec i s = .refused .rtIs15) ∨
      ∃ h : (rtField i).toNat < 15,
        (∃ e, accessDecision s.params s.ctx (direction i) = .exception e ∧
          exec i s = if s.ctx.condPassed then .next (takeException e s)
            else .refused .conditionFailedOnNonOkAccess) ∨
        (∃ n, accessDecision s.params s.ctx (direction i) = .access n ∧ instanceExists s.params n = false ∧
          exec i s = .refused .noSuchInstance) ∨
        (∃ n, accessDecision s.params s.ctx (direction i) = .access n ∧ instanceExists s.params n = true ∧
          exec i s = .next (completeAccess
            (if s.ctx.condPassed then accessEffect (direction i) ⟨(rtField i).toNat, h⟩ n s else s))) := by
  rw [exec_eq]
  cases hd : direction i
  · exact readIFSR_cases (rtField i) s
  · exact writeIFSR_cases (rtField i) s

/-- A granted access completes with `Ok` (40_sysreg_access.md rules R60, R61). -/
theorem exec_of_reaches {i : Instr} {s : State} {t : Fin 15} {n : InstanceName}
    (hrt : rtField i = BitVec.ofNat 4 t) (hr : Reaches s.params s.ctx (direction i) n)
    (he : instanceExists s.params n = true) (hc : s.ctx.condPassed = true) :
    exec i s = .next (completeAccess (accessEffect (direction i) t n s)) := by
  have hval : (rtField i).toNat = t.val := by
    rw [hrt, BitVec.toNat_ofNat]
    exact Nat.mod_eq_of_lt (by omega)
  rcases exec_cases i s with ⟨h15, _⟩ | ⟨h, ⟨e, hd, _⟩ | ⟨m, hd, hm, _⟩ | ⟨m, hd, _, hx⟩⟩
  · rw [h15] at hval
    have := t.isLt
    simp at hval
    omega
  · rw [accessDecision_eq_access_iff.mpr hr] at hd
    cases hd
  · rw [accessDecision_eq_access_iff.mpr hr] at hd
    injection hd with hd
    subst hd
    rw [he] at hm
    cases hm
  · rw [accessDecision_eq_access_iff.mpr hr] at hd
    injection hd with hd
    subst hd
    have ht : (⟨(rtField i).toNat, h⟩ : Fin 15) = t := Fin.ext hval
    rw [hx, hc, ht]
    rfl

/-- A step with an operation issued is that operation on the state without it (20_memory.md rule R45). -/
theorem step_cons {s : State} {r : Request} {rest : List Request} (h : s.inbox = r :: rest) :
    step s = perform r { s with inbox := rest } := by
  unfold step
  rw [takeRequest_cons h]

/-- All that a step which answers a next state can do: nothing when no operation is issued, and otherwise the oldest
operation, performed on the state without it (20_memory.md rule R45). -/
theorem step_next {s t : State} (h : step s = .next t) :
    (s.inbox = [] ∧ t = s) ∨
      ∃ r rest, s.inbox = r :: rest ∧ perform r { s with inbox := rest } = .next t := by
  unfold step at h
  cases hi : s.inbox with
  | nil =>
    rw [takeRequest_nil hi] at h
    injection h with h
    exact .inl ⟨rfl, h.symm⟩
  | cons r rest =>
    rw [takeRequest_cons hi] at h
    exact .inr ⟨r, rest, rfl, h⟩

end Sys2Proof.Laws
end

