-- ==== Sys2Proof/Laws/Encoding.lean ====
section
/-! SUPPORT. A word is its fields put together again: what the proofs about encodings rest on. -/

namespace Sys2Proof.Laws

/-- Two adjacent fields of a value, put together, are the one field that spans them. -/
theorem extract_append_extract {n : Nat} (w : BitVec n) (lo a b : Nat) :
    w.extractLsb' (lo + a) b ++ w.extractLsb' lo a = w.extractLsb' lo (b + a) := by
  apply BitVec.eq_of_getLsbD_eq
  intro i hi
  simp only [BitVec.getLsbD_append, BitVec.getLsbD_extractLsb']
  by_cases h : i < a
  · have h' : i < b + a := by omega
    simp [h, h']
  · have h' : i - a < b := by omega
    have h'' : lo + a + (i - a) = lo + i := by omega
    simp [h, h', hi, h'']

/-- A 32-bit value is its top eight bits and bits [23:0]. -/
theorem word_join_eight (w : Word) : w = w.extractLsb' 24 8 ++ w.extractLsb' 0 24 :=
  calc w = w.extractLsb' 0 32 := by simp
    _ = w.extractLsb' 24 8 ++ w.extractLsb' 0 24 := (extract_append_extract w 0 24 8).symm

/-- A 32-bit word is its top four bits, the next four and bits [23:0]. -/
theorem word_join (w : Word) : w = w.extractLsb' 28 4 ++ w.extractLsb' 24 4 ++ w.extractLsb' 0 24 :=
  calc w = w.extractLsb' 24 8 ++ w.extractLsb' 0 24 := word_join_eight w
    _ = w.extractLsb' 28 4 ++ w.extractLsb' 24 4 ++ w.extractLsb' 0 24 :=
      congrArg (fun x : BitVec 8 => x ++ w.extractLsb' 0 24) (extract_append_extract w 24 4 4).symm

/-- Bits [23:0] of an accessor are its eight fields. -/
theorem body_join (b : BitVec 24) :
    b = b.extractLsb' 21 3 ++ b.extractLsb' 20 1 ++ b.extractLsb' 16 4 ++ b.extractLsb' 12 4 ++ b.extractLsb' 8 4 ++
      b.extractLsb' 5 3 ++ b.extractLsb' 4 1 ++ b.extractLsb' 0 4 := by
  have e1 : b.extractLsb' 21 3 ++ b.extractLsb' 20 1 = b.extractLsb' 20 4 := extract_append_extract b 20 1 3
  have e2 : b.extractLsb' 20 4 ++ b.extractLsb' 16 4 = b.extractLsb' 16 8 := extract_append_extract b 16 4 4
  have e3 : b.extractLsb' 16 8 ++ b.extractLsb' 12 4 = b.extractLsb' 12 12 := extract_append_extract b 12 4 8
  have e4 : b.extractLsb' 12 12 ++ b.extractLsb' 8 4 = b.extractLsb' 8 16 := extract_append_extract b 8 4 12
  have e5 : b.extractLsb' 8 16 ++ b.extractLsb' 5 3 = b.extractLsb' 5 19 := extract_append_extract b 5 3 16
  have e6 : b.extractLsb' 5 19 ++ b.extractLsb' 4 1 = b.extractLsb' 4 20 := extract_append_extract b 4 1 19
  have e7 : b.extractLsb' 4 20 ++ b.extractLsb' 0 4 = b.extractLsb' 0 24 := extract_append_extract b 0 4 20
  rw [e1, e2, e3, e4, e5, e6, e7]
  simp

/-- What the decoder of bits [23:0] accepts (30_encoding.md rules R52, R53). -/
theorem decodeBody_eq_ok {b : BitVec 24} {dir : Direction} {rt : BitVec 4} (h : decodeBody b = .ok (dir, rt)) :
    b = transferBody dir ifsrPoint rt := by
  unfold decodeBody at h
  split at h
  · cases h
  · rename_i h4
    split at h
    · rename_i hp
      injection h with h
      injection h with hd hrt
      have h4' : b.extractLsb' 4 1 = 1#1 := by
        revert h4; generalize b.extractLsb' 4 1 = x; revert x; decide
      have hd' : b.extractLsb' 20 1 = directionBit dir := by
        subst hd
        generalize b.extractLsb' 20 1 = x
        revert x; decide
      simp only [bodyPoint, ifsrPoint, EncodingPoint.mk.injEq] at hp
      obtain ⟨hp1, hp2, hp3, hp5, hp6⟩ := hp
      rw [body_join b, h4', hd', hp1, hp2, hp3, hp5, hp6, hrt]
      rfl
    · cases h

end Sys2Proof.Laws
end

