-- ==== Sys2Proof/Laws/PerInstr.lean ====
section
/-! SUPPORT. What holds of each instruction as syntax, one lemma for each constructor. -/

namespace Sys2Proof.Laws.TableRow

/-- The words of a well-formed instruction fit its row of spec/opcode_table.json: under the row's mask they are the
row's match (30_encoding.md rules R53, R54). -/
def Statement (i : Instr) : Prop := wellFormed i = true → tableNumber (encode i) &&& tableMask i = tableMatch i

theorem mrcA32 (cond rt : BitVec 4) : Statement (.mrcA32 cond rt) := by
  revert cond rt; unfold Statement; decide

theorem mcrA32 (cond rt : BitVec 4) : Statement (.mcrA32 cond rt) := by
  revert cond rt; unfold Statement; decide

theorem mrcT32 (rt : BitVec 4) : Statement (.mrcT32 rt) := by
  revert rt; unfold Statement; decide

theorem mcrT32 (rt : BitVec 4) : Statement (.mcrT32 rt) := by
  revert rt; unfold Statement; decide

end Sys2Proof.Laws.TableRow
end

