-- ==== Sys2Proof/Laws/Tables.lean ====
section
/-! SUPPORT. The code tables kind by kind, the fields of a composed value, and what a synchronised recording leaves. -/

namespace Sys2Proof.Laws

open Sys2Proof.Machine Sys2Proof.Safety

/-- The FS value of a fault kind, kind by kind (10_state.md rule R31). -/
def shortRow : FaultKind → Option (BitVec 5)
  | .addressSizeTTBR => none
  | .addressSize _ => none
  | .translation .l1 => some 0b00101#5
  | .translation .l2 => some 0b00111#5
  | .translation .l3 => none
  | .accessFlag .l1 => some 0b00011#5
  | .accessFlag .l2 => some 0b00110#5
  | .accessFlag .l3 => none
  | .permission .l1 => some 0b01101#5
  | .permission .l2 => some 0b01111#5
  | .permission .l3 => none
  | .domain .l1 => some 0b01001#5
  | .domain .l2 => some 0b01011#5
  | .syncExternal => some 0b01000#5
  | .syncExternalTTW .l1 => some 0b01100#5
  | .syncExternalTTW .l2 => some 0b01110#5
  | .syncExternalTTW .l3 => none
  | .syncParity => some 0b11001#5
  | .syncParityTTW .l1 => some 0b11100#5
  | .syncParityTTW .l2 => some 0b11110#5
  | .syncParityTTW .l3 => none
  | .pcAlignment => some 0b00001#5
  | .debug => some 0b00010#5
  | .tlbConflict => some 0b10000#5
  | .lockdown => some 0b10100#5

/-- The STATUS value of a fault kind, kind by kind (10_state.md rule R31). -/
def longRow : FaultKind → Option (BitVec 6)
  | .addressSizeTTBR => some 0b000000#6
  | .addressSize .l1 => some 0b000001#6
  | .addressSize .l2 => some 0b000010#6
  | .addressSize .l3 => some 0b000011#6
  | .translation .l1 => some 0b000101#6
  | .translation .l2 => some 0b000110#6
  | .translation .l3 => some 0b000111#6
  | .accessFlag .l1 => some 0b001001#6
  | .accessFlag .l2 => some 0b001010#6
  | .accessFlag .l3 => some 0b001011#6
  | .permission .l1 => some 0b001101#6
  | .permission .l2 => some 0b001110#6
  | .permission .l3 => some 0b001111#6
  | .domain _ => none
  | .syncExternal => some 0b010000#6
  | .syncExternalTTW .l1 => some 0b010101#6
  | .syncExternalTTW .l2 => some 0b010110#6
  | .syncExternalTTW .l3 => some 0b010111#6
  | .syncParity => some 0b011000#6
  | .syncParityTTW .l1 => some 0b011101#6
  | .syncParityTTW .l2 => some 0b011110#6
  | .syncParityTTW .l3 => some 0b011111#6
  | .pcAlignment => some 0b100001#6
  | .debug => some 0b100010#6
  | .tlbConflict => some 0b110000#6
  | .lockdown => none

theorem shortCode_eq (p : Params) (k : FaultKind) : shortCode p k = if raisable p k then shortRow k else none := by
  unfold shortCode
  congr 1
  cases k <;> (try cases ‹Level›) <;> (try cases ‹DomainLevel›) <;> decide

theorem longCode_eq (p : Params) (k : FaultKind) : longCode p k = if raisable p k then longRow k else none := by
  unfold longCode
  congr 1
  cases k <;> (try cases ‹Level›) <;> (try cases ‹DomainLevel›) <;> decide

theorem parityKind_iff {k : FaultKind} : ParityKind k ↔ isParity k = true := by
  cases k <;> simp [ParityKind, isParity]

/-- A kind is raisable where FEAT_RAS does not rule it out and, for the Lockdown fault, the implementation has it
(60_exceptions.md rule R72). -/
theorem raisable_iff {p : Params} {k : FaultKind} :
    raisable p k = true ↔
      (ParityKind k → p.featRAS = false) ∧ (k = .lockdown → p.hasLockdownFault = true) := by
  rw [parityKind_iff]
  by_cases hk : k = .lockdown
  · subst hk; simp [raisable, rowApplies, isParity]
  · cases hp : isParity k <;> simp [raisable, rowApplies, hk, hp]

/-- The fields of a value composed in the short layout (60_exceptions.md rule R70). -/
theorem composeShort_fields (fnv ext : Bit) (code : BitVec 5) :
    fieldFnV (composeShort fnv ext code) = fnv ∧ fieldExT (composeShort fnv ext code) = ext ∧
      fieldLPAE (composeShort fnv ext code) = 0#1 ∧ fieldFS (composeShort fnv ext code) = code ∧
      composeShort fnv ext code &&& res0Short = 0#32 := by
  revert fnv ext code; decide

/-- The fields of a value composed in the long layout (60_exceptions.md rule R70). -/
theorem composeLong_fields (fnv ext : Bit) (code : BitVec 6) :
    fieldFnV (composeLong fnv ext code) = fnv ∧ fieldExT (composeLong fnv ext code) = ext ∧
      fieldLPAE (composeLong fnv ext code) = 1#1 ∧ fieldSTATUS (composeLong fnv ext code) = code ∧
      composeLong fnv ext code &&& res0Long = 0#32 := by
  revert fnv ext code; decide

/-- A composed value is one of the layout that `eae` selects, with the code of the fault (60_exceptions.md rules R70,
R71). -/
theorem recordedValue_eq_some {p : Params} {r : FaultReport} {ext : Bit} {v : Word}
    (h : recordedValue p r ext = some v) :
    (r.eae = 0#1 ∧ ∃ code, shortCode p r.fault = some code ∧
        v = composeShort (fnvBit r.fault r.ifarValid) ext code) ∨
      (r.eae = 1#1 ∧ ∃ code, longCode p r.fault = some code ∧
        v = composeLong (fnvBit r.fault r.ifarValid) ext code) := by
  unfold recordedValue at h
  by_cases h0 : r.eae = 0#1
  · simp only [h0, if_true, Option.map_eq_some_iff] at h
    obtain ⟨c, hc, rfl⟩ := h
    exact .inl ⟨h0, c, hc, rfl⟩
  · simp only [h0, if_false, Option.map_eq_some_iff] at h
    obtain ⟨c, hc, rfl⟩ := h
    exact .inr ⟨by revert h0; generalize r.eae = b; revert b; decide, c, hc, rfl⟩

/-- A synchronised recording that answers a next state leaves the composed value in the target, and nothing else but
the count of draws moves (60_exceptions.md rule R76). -/
theorem recordInstructionFault_synchronised {r : FaultReport} {s t : State} (hs : Synchronised r.target s)
    (h : recordInstructionFault r s = .next t) :
    ∃ v, recordedValue s.params r (recordedExt r s).1 = some v ∧ cellRead r.target t = v ∧
      t = { cellWrite r.target v s with draws := (recordedExt r s).2.draws } := by
  obtain ⟨he, v, hv, -⟩ := recordInstructionFault_next h
  have hf := present_of_instanceExists he
  obtain ⟨k, hk⟩ := recordedExt_state r s
  refine ⟨v, hv, ?_⟩
  unfold recordInstructionFault at h
  rw [hf, he, hv] at h
  injection h with h
  subst h
  unfold storeRecorded
  rw [hk, valueLeft_synchronised (s := { s with draws := k }) hs]
  exact ⟨by simp, rfl⟩

end Sys2Proof.Laws
end

