-- ==== Sys2Proof/Tests/Slice0.lean ====
section
/-! SUPPORT. Tests: the check of well-formedness, words written out from the spec's encodings, the vectors of
95_test_vectors.md, and for each statement with hypotheses a concrete state and operands that meet them. -/

namespace Sys2Proof.Tests

open Sys2Proof.Machine Sys2Proof.Safety Sys2Proof.Laws

/-! ### Concrete implementations, inputs and states -/

/-- Parameter set A of 95_test_vectors.md: the one instance IFSR. -/
def setA : Params := { resetParams with haveEL3 := false, featAA32EL3 := false, featAA64EL2 := false, featAA32EL2 := false }

/-- Parameter set B: the banked instances only. -/
def setB : Params := { resetParams with featAA64 := false, featAA64EL2 := false }

/-- Parameter set C: all three instances. -/
def setC : Params := resetParams

/-- Parameter set D: the register is absent. -/
def setD : Params := { resetParams with featAA32EL1 := false }

/-- Parameter set E: EL3 without AArch32. -/
def setE : Params := { resetParams with featAA32EL3 := false, featAA32EL2 := false }

/-- The default inputs of 95_test_vectors.md, at a level. -/
def inputs (el : ExceptionLevel) : Context :=
  { el := el, el2Enabled := false, el2UsingAArch32 := false, el3UsingAArch32 := false, hstrEL2T5 := 0, hstrT5 := 0,
    hcrEL2Trvm := 0, hcrTrvm := 0, hcrEL2Tvm := 0, hcrTvm := 0, scrNS := 0, condPassed := true }

/-- A state of an implementation under given inputs, with 0x205 in every register and three cell values. -/
def stateOf (p : Params) (c : Context) : State :=
  { State.reset with params := p, ctx := c, regs := Vector.replicate 15 0x205#32, cells := ⟨0x111#32, 0x222#32, 0x333#32⟩ }

/-- The same state with operations issued. -/
def issued (p : Params) (c : Context) (ops : List Request) : State := { stateOf p c with inbox := ops }

/-- An answer is a next state that passes a check. -/
def nextWith (check : State → Bool) : Host.Outcome State Fault Refusal → Bool
  | .next s => check s
  | .fault _ => false
  | .refused _ => false

/-- An answer is a given refusal. -/
def refusedWith (r : Refusal) : Host.Outcome State Fault Refusal → Bool
  | .next _ => false
  | .fault _ => false
  | .refused r' => r' == r

/-! ### Well-formedness and decoding -/

theorem test_wellFormed_refuses_mrc_of_cond_1111 : wellFormed (.mrcA32 0b1111#4 0#4) = false := by decide
theorem test_wellFormed_refuses_mcr_of_cond_1111 : wellFormed (.mcrA32 0b1111#4 0#4) = false := by decide
theorem test_wellFormed_admits_always : wellFormed (.mrcA32 0b1110#4 15#4) = true := by decide

/-- `cccc 1110 0001 0101 tttt 1111 0011 0000` with cond 0b0000 and Rt 2 (30_encoding.md rule R53). -/
theorem test_word_mrcA32 : decode (.a32 0b00001110000101010010111100110000#32) = .ok (.mrcA32 0b0000#4 2#4) := by decide
/-- `cccc 1110 0000 0101 tttt 1111 0011 0000` with cond 0b0001 and Rt 5 (30_encoding.md rule R53). -/
theorem test_word_mcrA32 : decode (.a32 0b00011110000001010101111100110000#32) = .ok (.mcrA32 0b0001#4 5#4) := by decide
/-- hw1 `1110 1110 0001 0101`, hw2 `tttt 1111 0011 0000` with Rt 12 (30_encoding.md rule R54). -/
theorem test_word_mrcT32 : decode (.t32 0b1110111000010101#16 0b1100111100110000#16) = .ok (.mrcT32 12#4) := by decide
/-- hw1 `1110 1110 0000 0101`, hw2 `tttt 1111 0011 0000` with Rt 14 (30_encoding.md rule R54). -/
theorem test_word_mcrT32 : decode (.t32 0b1110111000000101#16 0b1110111100110000#16) = .ok (.mcrT32 14#4) := by decide

/-- The non-matches of 95_test_vectors.md section 2.9. -/
theorem test_words_not_ifsr :
    [0xEE150F10#32, 0xEE150F31#32, 0xEE160F30#32, 0xEE350F30#32, 0xEE150E30#32].all
      (fun w => decode (.a32 w) == .error .otherRegister) = true ∧
    decode (.a32 0xFE150F30#32) = .error .unconditionalSpace ∧
    decode (.a32 0xEE150F20#32) = .error .notRegisterTransfer := by decide

/-- The match of each row of spec/opcode_table.json is read as that row's instruction. -/
theorem test_table_rows :
    decodeTableWord 32 0x0E150F30 = some (.mrcA32 0 0) ∧ decodeTableWord 32 0x0E050F30 = some (.mcrA32 0 0) ∧
    decodeTableWord 32 0xEE150F30 = some (.mrcT32 0) ∧ decodeTableWord 32 0xEE050F30 = some (.mcrT32 0) := by decide

/-- A table row runs as the first instruction after reset. -/
theorem test_first_instruction_after_reset :
    nextWith (fun s => s.outcome == some .ok) (step (State.reset.withFetchWord 32 0x0E050F30)) = true := by decide

/-! ### Instructions (95_test_vectors.md sections 2.1 and 2.2) -/

/-- Vectors A11 and V1: a read at EL1 moves the instance whole and leaves it. -/
theorem test_mrcA32_reads : nextWith (fun s => s.regs[3] == 0x111#32 && s.regs[2] == 0x205#32 && s.cells.ifsr == 0x111#32)
    (exec (.mrcA32 0b1110#4 3#4) (stateOf setA (inputs .el1))) = true := by decide
/-- Vector A11: a read is trapped by TRVM to an EL2 using AArch32, and changes nothing. -/
theorem test_mrcA32_trapped_by_trvm :
    nextWith (fun s => s.outcome == some (.exception (.hypTrap 0x03#8)) && s.regs[0] == 0x205#32)
    (exec (.mrcA32 0b1110#4 0#4) (stateOf setB { inputs .el1 with
      el3UsingAArch32 := true, scrNS := 1, el2Enabled := true, el2UsingAArch32 := true, hcrTrvm := 1 })) = true := by decide
/-- Vector V7: a write keeps only the WRITABLE bits. -/
theorem test_mcrA32_masks :
    nextWith (fun s => s.cells.ifsr == 0x0001162F#32 && s.cells.ifsrS == 0x222#32 && s.regs[1] == 0xDEADBEEF#32)
    (exec (.mcrA32 0b1110#4 1#4) { stateOf { setA with writable := 0x0001163F#32 } (inputs .el1) with
      regs := Vector.replicate 15 0xDEADBEEF#32 }) = true := by decide
/-- Vector A11: a write is not trapped by TRVM. -/
theorem test_mcrA32_not_trapped_by_trvm : nextWith (fun s => s.outcome == some .ok && s.cells.ifsrNS == 0x205#32)
    (exec (.mcrA32 0b1110#4 0#4) (stateOf setB { inputs .el1 with
      el3UsingAArch32 := true, scrNS := 1, el2Enabled := true, el2UsingAArch32 := true, hcrTrvm := 1 })) = true := by decide
/-- Vector A29: at EL3 SCR.NS alone chooses, even with EL3 not using AArch32. -/
theorem test_mrcT32_at_el3 : nextWith (fun s => s.regs[14] == 0x222#32)
    (exec (.mrcT32 14#4) (stateOf setC (inputs .el3))) = true := by decide
/-- Vector A1: EL0 is Undefined. -/
theorem test_mrcT32_undefined_at_el0 : nextWith (fun s => s.outcome == some (.exception .undefined))
    (exec (.mrcT32 0#4) (stateOf setA (inputs .el0))) = true := by decide
/-- Vector A22: a write is trapped by TVM to an EL2 using AArch64. -/
theorem test_mcrT32_trapped_by_tvm :
    nextWith (fun s => s.outcome == some (.exception (.trapToEL2AArch64 0x03#8)) && s.cells.ifsr == 0x111#32)
    (exec (.mcrT32 0#4) (stateOf setC { inputs .el1 with el2Enabled := true, hcrEL2Tvm := 1 })) = true := by decide
/-- Vectors A39 and A40: an instance that does not exist. -/
theorem test_mcrT32_no_such_instance : refusedWith .noSuchInstance
    (exec (.mcrT32 0#4) (stateOf setE { inputs .el3 with scrNS := 1 })) = true := by decide
/-- Vector A32: a failed condition on an access that is Undefined. -/
theorem test_condition_failed_at_el0 : refusedWith .conditionFailedOnNonOkAccess
    (exec (.mrcA32 0b0000#4 0#4) (stateOf setC { inputs .el0 with condPassed := false })) = true := by decide

/-! ### Recording, reading and reset (95_test_vectors.md sections 2.3 to 2.8) -/

/-- Vectors F1 to F18, the short layout: fault and value, in order. -/
theorem test_short_values :
    [(FaultKind.pcAlignment, 0x001#32), (.debug, 0x002#32), (.accessFlag .l1, 0x003#32), (.translation .l1, 0x005#32),
      (.accessFlag .l2, 0x006#32), (.translation .l2, 0x007#32), (.syncExternal, 0x008#32), (.domain .l1, 0x009#32),
      (.domain .l2, 0x00B#32), (.syncExternalTTW .l1, 0x00C#32), (.permission .l1, 0x00D#32),
      (.syncExternalTTW .l2, 0x00E#32), (.permission .l2, 0x00F#32), (.tlbConflict, 0x400#32), (.lockdown, 0x404#32),
      (.syncParity, 0x409#32), (.syncParityTTW .l1, 0x40C#32), (.syncParityTTW .l2, 0x40E#32)].all
      (fun x => recordedValue setC ⟨.ifsr, 0, x.1, true, 0⟩ 0 == some x.2 &&
        (decodeShort setC x.2).kind == .kind x.1) = true := by decide

/-- Vectors F19 to F42, the long layout: fault and value, in order. -/
theorem test_long_values :
    [(FaultKind.addressSizeTTBR, 0x200#32), (.addressSize .l1, 0x201#32), (.addressSize .l2, 0x202#32),
      (.addressSize .l3, 0x203#32), (.translation .l1, 0x205#32), (.translation .l2, 0x206#32),
      (.translation .l3, 0x207#32), (.accessFlag .l1, 0x209#32), (.accessFlag .l2, 0x20A#32), (.accessFlag .l3, 0x20B#32),
      (.permission .l1, 0x20D#32), (.permission .l2, 0x20E#32), (.permission .l3, 0x20F#32), (.syncExternal, 0x210#32),
      (.syncExternalTTW .l1, 0x215#32), (.syncExternalTTW .l2, 0x216#32), (.syncExternalTTW .l3, 0x217#32),
      (.syncParity, 0x218#32), (.syncParityTTW .l1, 0x21D#32), (.syncParityTTW .l2, 0x21E#32),
      (.syncParityTTW .l3, 0x21F#32), (.pcAlignment, 0x221#32), (.debug, 0x222#32), (.tlbConflict, 0x230#32)].all
      (fun x => recordedValue setC ⟨.ifsr, 1, x.1, true, 0⟩ 0 == some x.2 &&
        (decodeLong setC x.2).kind == .kind x.1) = true := by decide

/-- Vectors X3 and X9: FnV and ExT beside a code; FnV stays 0 on a walk. -/
theorem test_fnv_and_ext :
    recordedValue setC ⟨.ifsr, 0, .syncExternal, false, 0⟩ 1 = some 0x00011008#32 ∧
    recordedValue setC ⟨.ifsr, 1, .syncExternalTTW .l3, false, 0⟩ 1 = some 0x00001217#32 := by decide

/-- Vectors DC2 and DC10: one value in both layouts. -/
theorem test_decode_vectors :
    decodeLong setC 0x00010008#32 = ⟨1, 0, 0, 0b001000#6, .reserved, 0⟩ ∧
    decodeShort setC 0xDEADBEEF#32 = ⟨1, 1, 1, 0b11111#5, .reserved, 0xDEACA8E0#32⟩ := by decide

/-- Vector W3: a recording into IFSR_NS replaces it whole and leaves IFSR_S. -/
theorem test_record_leaves_the_other_instance :
    nextWith (fun s => s.cells.ifsrNS == 0x20B#32 && s.cells.ifsrS == 0x222#32)
      (step (issued setB (inputs .el1) [.recordFault ⟨.ifsrNS, 1, .accessFlag .l3, true, 0⟩])) = true := by decide

/-- Vectors RF1, RF8 and RF9: recordings that are refused. -/
theorem test_record_refused :
    refusedWith .noCodeInLayout (recordInstructionFault ⟨.ifsr, 1, .domain .l1, true, 0⟩ (stateOf setA (inputs .el1))) = true ∧
    refusedWith .noSuchInstance (recordInstructionFault ⟨.ifsr, 1, .debug, true, 0⟩ (stateOf setB (inputs .el1))) = true ∧
    refusedWith .registerAbsent (recordInstructionFault ⟨.ifsr, 1, .debug, true, 0⟩ (stateOf setD (inputs .el1))) = true := by
  decide

/-- Vector T3: a reset of set B draws twice, for IFSR_S and then for IFSR_NS, and leaves what does not exist. -/
theorem test_reset_of_set_B :
    (warmReset (stateOf setB (inputs .el1))).cells =
      ⟨0x111#32, Config.draw32 3 &&& 0xFFFFFFFF#32, Config.draw32 4 &&& 0xFFFFFFFF#32⟩ := rfl

/-! ### Witnesses: hypotheses of the statements, met together -/

/-- A read and a write at EL1 reach IFSR on set A. -/
theorem witness_reaches_at_el1 (dir : Direction) : Reaches setA (inputs .el1) dir .ifsr ∧
    instanceExists setA .ifsr = true ∧ (inputs .el1).condPassed = true :=
  ⟨accessDecision_eq_access_iff.mp (by cases dir <;> decide), by decide, by decide⟩

/-- At EL2 with EL3 using AArch32 they reach IFSR_NS on set B. -/
theorem witness_reaches_at_el2 (dir : Direction) : Reaches setB { inputs .el2 with el3UsingAArch32 := true } dir .ifsrNS ∧
    instanceExists setB .ifsrNS = true :=
  ⟨accessDecision_eq_access_iff.mp (by cases dir <;> decide), by decide⟩

/-- At EL3 they reach IFSR_S or IFSR_NS on set C by SCR.NS. -/
theorem witness_reaches_at_el3 (dir : Direction) :
    Reaches setC (inputs .el3) dir .ifsrS ∧ Reaches setC { inputs .el3 with scrNS := 1 } dir .ifsrNS ∧
    instanceExists setC .ifsrS = true ∧ instanceExists setC .ifsrNS = true :=
  ⟨accessDecision_eq_access_iff.mp (by cases dir <;> decide), accessDecision_eq_access_iff.mp (by cases dir <;> decide),
    by decide, by decide⟩

/-- A trap to an EL2 using AArch32, of either direction (vectors A10, A11, A12). -/
theorem witness_hypTrap (dir : Direction) :
    TrappedToHyp setB { inputs .el1 with el2Enabled := true, el2UsingAArch32 := true, hstrT5 := 1 } dir := by
  cases dir <;> exact ⟨rfl, rfl, rfl, .inl rfl⟩

/-- A trap to an EL2 using AArch64, of either direction (vectors A20, A21, A22). -/
theorem witness_trap64 (dir : Direction) :
    TrappedToAArch64 setC { inputs .el1 with el2Enabled := true, hstrEL2T5 := 1 } dir := by
  cases dir <;> exact ⟨rfl, rfl, rfl, .inl rfl⟩

/-- Each of the four remaining controls of the table of 60_exceptions.md rule R85, alone. -/
theorem witness_each_control_alone :
    TrappedToAArch64 setC { inputs .el1 with el2Enabled := true, hcrEL2Trvm := 1 } .read ∧
    TrappedToAArch64 setC { inputs .el1 with el2Enabled := true, hcrEL2Tvm := 1 } .write ∧
    TrappedToHyp setB { inputs .el1 with el2Enabled := true, el2UsingAArch32 := true, hcrTrvm := 1 } .read ∧
    TrappedToHyp setB { inputs .el1 with el2Enabled := true, el2UsingAArch32 := true, hcrTvm := 1 } .write :=
  ⟨⟨rfl, rfl, rfl, .inr rfl⟩, ⟨rfl, rfl, rfl, .inr rfl⟩, ⟨rfl, rfl, rfl, .inr rfl⟩, ⟨rfl, rfl, rfl, .inr rfl⟩⟩

/-- An access at EL1 that no control traps, and one that a control traps. -/
theorem witness_el1_untrapped_and_trapped :
    ¬TrappedToAArch64 setC (inputs .el1) .read ∧ ¬TrappedToHyp setC (inputs .el1) .read ∧
    BelowEL3Reaches setC (inputs .el1) .ifsr ∧ BelowEL3Reaches setC { inputs .el1 with el3UsingAArch32 := true } .ifsrNS := by
  refine ⟨fun h => ?_, fun h => ?_, .inr ⟨fun h => ?_, rfl⟩, .inl ⟨⟨rfl, rfl, rfl⟩, rfl⟩⟩
  · cases h.1
  · cases h.1
  · cases h.2.2

/-- Controls without effect: EL2 not enabled, or in the other Execution state, or without the feature. -/
theorem witness_controls_without_effect :
    (inputs .el1).el2Enabled = false ∧ (inputs .el2).el ≠ .el1 ∧ setB.featAA64EL2 = false ∧ setE.featAA32EL2 = false := by
  decide

/-- Undefined: the feature absent at EL3, and EL0 with the feature; register 0 and a passed condition. -/
theorem witness_undefined :
    setD.featAA32EL1 = false ∧ (inputs .el3).condPassed = true ∧ rtField (.mrcT32 0#4) ≠ 15#4 ∧
    (inputs .el0).el = .el0 ∧ setA.featAA32EL1 = true := by decide

/-- Answers that the converse clauses speak of: each of the three exceptions is answered somewhere. -/
theorem witness_exceptions_answered :
    nextWith (fun s => s.outcome == some (.exception .undefined)) (exec (.mcrA32 0b1110#4 0#4) (stateOf setD (inputs .el3))) = true ∧
    nextWith (fun s => s.outcome == some (.exception (.hypTrap 3#8))) (exec (.mcrA32 0b1110#4 14#4) (stateOf setB
      { inputs .el1 with el2Enabled := true, el2UsingAArch32 := true, hstrT5 := 1 })) = true ∧
    nextWith (fun s => s.outcome == some (.exception (.trapToEL2AArch64 3#8))) (exec (.mrcT32 0#4) (stateOf setC
      { inputs .el1 with el2Enabled := true, hstrEL2T5 := 1 })) = true := by decide

/-- Register 15 and its neighbours 14 and 0, in every instruction. -/
theorem witness_registers :
    [Instr.mrcA32 0 15, .mcrA32 0 15, .mrcT32 15, .mcrT32 15].all (fun i => rtField i == 15#4) = true ∧
    [Instr.mrcA32 0 14, .mcrA32 0 0, .mrcT32 14, .mcrT32 0].all (fun i => rtField i != 15#4) = true := by decide

/-- A failed condition over each of the three answers of the same access with the condition passed. -/
theorem witness_failed_condition :
    ({ inputs .el2 with condPassed := false } : Context).condPassed = false ∧
    nextWith (fun s => s.outcome == some .ok) (exec (.mrcT32 0#4) (stateOf setC (inputs .el2))) = true ∧
    nextWith (fun s => s.outcome == some (.exception .undefined)) (exec (.mrcT32 0#4) (stateOf setC (inputs .el0))) = true ∧
    refusedWith .noSuchInstance (exec (.mrcT32 0#4) (stateOf setA (inputs .el3))) = true := by decide

/-- A context that meets the architectural relations and reaches an instance, and one that names an absent instance. -/
theorem witness_architectural :
    ArchitecturalContext setB { inputs .el3 with el3UsingAArch32 := true } ∧
    accessDecision setB { inputs .el3 with el3UsingAArch32 := true } .read = .access .ifsrS ∧
    accessDecision setA (inputs .el3) .write = .access .ifsrS ∧ instanceExists setA .ifsrS = false :=
  ⟨⟨(fun _ => .inl rfl), (fun _ _ => rfl), (fun _ h => by cases h), (fun _ => ⟨rfl, rfl⟩)⟩, by decide, by decide, by decide⟩

/-- Below EL3 a read and a write answer next states and a refusal; at EL3 SCR.NS takes both values. -/
theorem witness_below_el3 :
    (inputs .el1).el ≠ .el3 ∧
    nextWith (fun s => s.cells.ifsr != 0x111#32) (exec (.mcrT32 0#4) (stateOf setA (inputs .el1))) = true ∧
    refusedWith .rtIs15 (exec (.mcrT32 15#4) (stateOf setA (inputs .el1))) = true ∧
    (inputs .el3).scrNS = 0#1 ∧ ({ inputs .el3 with scrNS := 1 } : Context).scrNS ≠ 0#1 := by decide

/-- A write and then a read of the same instance, issued one after the other, from register 2 into register 4. -/
theorem witness_write_then_read :
    (issued setA (inputs .el1) [.instruction (encode (.mcrA32 0b1110#4 2#4)), .instruction (encode (.mrcT32 4#4))]).inbox =
      [.instruction (encode (.mcrA32 0b1110#4 2#4)), .instruction (encode (.mrcT32 4#4))] ∧
    decode (encode (.mcrA32 0b1110#4 2#4)) = .ok (.mcrA32 0b1110#4 2#4) ∧ decode (encode (.mrcT32 4#4)) = .ok (.mrcT32 4#4) ∧
    rtField (.mcrA32 0b1110#4 2#4) = BitVec.ofNat 4 (2 : Fin 15) ∧ rtField (.mrcT32 4#4) = BitVec.ofNat 4 (4 : Fin 15) := by
  decide

/-- A recording and then a read that reaches its target, with no write outstanding (program P3). -/
theorem witness_record_then_read :
    Synchronised .ifsr (stateOf setA (inputs .el1)) ∧
    recordedValue setA ⟨.ifsr, 1, .translation .l3, true, 0⟩
      (recordedExt ⟨.ifsr, 1, .translation .l3, true, 0⟩ (stateOf setA (inputs .el1))).1 = some 0x207#32 ∧
    decode (.a32 0xEE150F30#32) = .ok (.mrcA32 0b1110#4 0#4) :=
  ⟨.inl rfl, by decide, by decide⟩

/-- Synchronised recordings that answer a next state: in each layout, of an External abort, of a parity kind and of
another kind, with and without a classification. -/
theorem witness_recordings :
    Synchronised .ifsr (stateOf setC (inputs .el1)) ∧
    [(⟨.ifsr, 0, .syncExternal, false, 0⟩ : FaultReport), ⟨.ifsr, 1, .syncExternalTTW .l3, true, 0⟩,
      ⟨.ifsr, 0, .syncParity, true, 0⟩, ⟨.ifsr, 1, .syncParityTTW .l3, true, 0⟩, ⟨.ifsr, 0, .lockdown, true, 0⟩,
      ⟨.ifsr, 1, .pcAlignment, true, 0⟩].all (fun r =>
        nextWith (fun _ => true) (recordInstructionFault r (stateOf setC (inputs .el1))) &&
        nextWith (fun _ => true) (recordInstructionFault r (stateOf { setC with extClassified := false } (inputs .el1)))) =
      true :=
  ⟨.inl rfl, by decide⟩

/-- Faults without a code, one for each clause of 60_exceptions.md rule R77, and one with a code. -/
theorem witness_no_code :
    NoCode setC 1#1 (.domain .l2) ∧ NoCode setC 1#1 .lockdown ∧ NoCode setC 0#1 .addressSizeTTBR ∧
    NoCode setC 0#1 (.permission .l3) ∧ NoCode { setC with featRAS := true } 0#1 .syncParity ∧
    NoCode { setC with hasLockdownFault := false } 0#1 .lockdown ∧ ¬NoCode setC 0#1 .debug ∧
    instanceExists setC .ifsr = true := by
  simp [NoCode, AtLevelThree, ParityKind]
  decide

/-- A recording over an unsynchronised software write, with `SYNC_REQUIRED`. -/
theorem witness_unsynchronised :
    ({ setA with syncRequired := true } : Params).syncRequired = true ∧
    bankGet ({ stateOf { setA with syncRequired := true } (inputs .el1) with
      unsynced := ⟨some 0x205#32, none, none⟩ } : State).unsynced .ifsr = some 0x205#32 ∧
    instanceExists { setA with syncRequired := true } .ifsr = true ∧
    recordedValue { setA with syncRequired := true } ⟨.ifsr, 0, .debug, true, 0⟩
      (recordedExt ⟨.ifsr, 0, .debug, true, 0⟩ (stateOf { setA with syncRequired := true } (inputs .el1))).1 =
      some 0x002#32 := by decide

/-- Two recordings into one instance (vector W4). -/
theorem witness_two_recordings :
    nextWith (fun s => nextWith (fun u => u.cells.ifsr == 0x230#32)
        (recordInstructionFault ⟨.ifsr, 1, .tlbConflict, true, 0⟩ s))
      (recordInstructionFault ⟨.ifsr, 1, .debug, true, 0⟩ (stateOf setA (inputs .el1))) = true ∧
    ¬ParityKind .tlbConflict := by
  refine ⟨by decide, ?_⟩
  simp [ParityKind]

/-- Issued operations: one of each kind stands first in some queue; an empty queue. -/
theorem witness_issued :
    (issued setA (inputs .el1) [.contextSync]).inbox = [.contextSync] ∧ (stateOf setA (inputs .el1)).inbox = [] ∧
    (issued setA (inputs .el1) [.reset .other]).inbox = [.reset .other] ∧
    (issued setA (inputs .el1) [.register 14 7#32]).inbox = [.register 14 7#32] ∧
    (issued setA (inputs .el1) [.context (inputs .el0)]).inbox = [.context (inputs .el0)] ∧
    (issued setA (inputs .el1) [.instruction (.a32 0xEE150F10#32)]).inbox = [.instruction (.a32 0xEE150F10#32)] ∧
    (issued setA (inputs .el1) [.instruction (.t32 0xEE15#16 0x0F10#16)]).inbox =
      [.instruction (halfwords (0b11101110#8 ++ transferBody .read { ifsrPoint with opc2 := 0#3 } 0#4))] ∧
    (issued setA (inputs .el1) [.recordFault ⟨.ifsr, 1, .debug, true, 0⟩]).inbox =
      [.recordFault ⟨.ifsr, 1, .debug, true, 0⟩] ∧
    decode (.a32 0xEE150F10#32) = .error .otherRegister := by decide

/-- Steps that change a cell and a register. -/
theorem witness_changes :
    nextWith (fun s => s.cells.ifsr != 0x111#32)
      (step (issued setA (inputs .el1) [.instruction (encode (.mcrT32 0#4))])) = true ∧
    nextWith (fun s => s.regs[3] != 0x205#32)
      (step (issued setA (inputs .el1) [.instruction (encode (.mrcT32 3#4))])) = true ∧
    nextWith (fun s => s.regs[14] != 0x205#32) (step (issued setA (inputs .el1) [.register 14 7#32])) = true ∧
    refusedWith .rtIs15 (step (issued setA (inputs .el1) [.instruction (encode (.mrcT32 15#4))])) = true := by decide

/-- A step for each reason of a refusal: two of words, three of an access, three of a recording. -/
theorem witness_step_refusals :
    refusedWith (.notIFSR .otherRegister)
      (step (issued setA (inputs .el1) [.instruction (.t32 0xEE15#16 0x0F10#16)])) = true ∧
    refusedWith (.notIFSR .unconditionalSpace)
      (step (issued setA (inputs .el1) [.instruction (.a32 0xFE150F30#32)])) = true ∧
    refusedWith .rtIs15 (step (issued setA (inputs .el1) [.instruction (.a32 0xEE15FF30#32)])) = true ∧
    refusedWith .noSuchInstance (step (issued setA (inputs .el3) [.instruction (.a32 0xEE150F30#32)])) = true ∧
    refusedWith .conditionFailedOnNonOkAccess
      (step (issued setA { inputs .el0 with condPassed := false } [.instruction (.a32 0x0E152F30#32)])) = true ∧
    refusedWith .registerAbsent
      (step (issued setD (inputs .el1) [.recordFault ⟨.ifsr, 0, .debug, true, 0⟩])) = true ∧
    refusedWith .noSuchInstance
      (step (issued setA (inputs .el1) [.recordFault ⟨.ifsrS, 0, .debug, true, 0⟩])) = true ∧
    refusedWith .noCodeInLayout
      (step (issued setA (inputs .el1) [.recordFault ⟨.ifsr, 1, .domain .l1, true, 0⟩])) = true := by decide

/-- A recording issued at a level that cannot read the target back completes by a step. -/
theorem witness_step_records :
    nextWith (fun s => s.cells.ifsr == 0x222#32 && s.inbox == [])
      (step (issued setA (inputs .el0) [.recordFault ⟨.ifsr, 1, .debug, true, 0⟩])) = true := by decide

/-- A safe state from which a step answers a next state: a write at EL1. -/
theorem witness_safe_state_steps :
    nextWith (fun s => s.cells.ifsr != 0x111#32)
      (step { issued setA (inputs .el1) [.instruction (encode (.mcrT32 0#4))] with
        cells := ⟨0x111#32, 0#32, 0#32⟩ }) = true ∧
    SafeState { issued setA (inputs .el1) [.instruction (encode (.mcrT32 0#4))] with
      cells := ⟨0x111#32, 0#32, 0#32⟩ } := by
  refine ⟨by decide, by decide, fun n => ?_, fun n w h => ?_, fun n h => ?_, fun ec h => ?_⟩
  · cases n <;> simp [WithinWritable, cellRead, bankGet, issued, stateOf, setA, resetParams]
  · cases n <;> cases h
  · cases n
    · cases h
    · exact ⟨rfl, rfl⟩
    · exact ⟨rfl, rfl⟩
  · rcases h with h | h <;> cases h

/-- The converse clauses of masks and tables: a reserved code of each layout, and one reserved only with FEAT_RAS. -/
theorem witness_reserved :
    shortKind setC 0b00000#5 = .reserved ∧ shortKind setC 0b11111#5 = .reserved ∧
    shortKind { setC with featRAS := true } 0b11001#5 = .reserved ∧ shortKind setC 0b11001#5 = .kind .syncParity ∧
    longKind setC 0b100011#6 = .reserved ∧ longKind setC 0b111111#6 = .reserved ∧
    longKind { setC with featRAS := true } 0b011111#6 = .reserved := by decide

/-- An encoding point other than IFSR's, one field away, and a condition at each end of its range. -/
theorem witness_other_point :
    ({ ifsrPoint with opc2 := 0#3 } : EncodingPoint) ≠ ifsrPoint ∧ isCondition 0b0000#4 = true ∧
    isCondition 0b1110#4 = true ∧ wellFormed (.mrcA32 0b1110#4 0#4) = true ∧
    decodeTableWord 32 0xEE150F30 = some (.mrcT32 0#4) := by decide

end Sys2Proof.Tests
end

section
/-! PROOFS. The invariant of a safe state and the answers of a step: what each operation keeps, and the statements of
00_scope.md about every step. -/

namespace Sys2Proof.Proofs

open Sys2Proof.Machine Sys2Proof.Safety Sys2Proof.Laws

/-! ### What a step can answer -/

/-- All that an access which answers a next state can do: it takes the exception that is decided, or completes where
the reached register exists, with its effect under a passed condition (40_sysreg_access.md rules R62, R64). -/
theorem exec_next {i : Instr} {s t : State} (h : exec i s = .next t) :
    (∃ e, accessDecision s.params s.ctx (direction i) = .exception e ∧ t = takeException e s) ∨
      ∃ n k, accessDecision s.params s.ctx (direction i) = .access n ∧ instanceExists s.params n = true ∧
        t = completeAccess (if s.ctx.condPassed then accessEffect (direction i) k n s else s) := by
  rcases exec_cases i s with ⟨_, hx⟩ | ⟨hlt, ⟨e, hd, hx⟩ | ⟨n, _, _, hx⟩ | ⟨n, hd, he, hx⟩⟩
  · rw [hx] at h; cases h
  · rw [hx] at h
    split at h
    · injection h with h; exact .inl ⟨e, hd, h.symm⟩
    · cases h
  · rw [hx] at h; cases h
  · rw [hx] at h
    injection h with h
    exact .inr ⟨n, _, hd, he, h.symm⟩

/-- The reasons for which an access is refused (30_encoding.md rules R55, R57; 10_state.md rule R12). -/
theorem exec_refused {i : Instr} {s : State} {why : Refusal} (h : exec i s = .refused why) :
    (why = .rtIs15 ∧ rtField i = 15#4) ∨
      (why = .noSuchInstance ∧ ∃ n, accessDecision s.params s.ctx (direction i) = .access n ∧
        instanceExists s.params n = false) ∨
      (why = .conditionFailedOnNonOkAccess ∧ s.ctx.condPassed = false ∧
        ∃ e, accessDecision s.params s.ctx (direction i) = .exception e) := by
  rcases exec_cases i s with ⟨h15, hx⟩ | ⟨_, ⟨e, hd, hx⟩ | ⟨n, hd, he, hx⟩ | ⟨_, _, _, hx⟩⟩
  · rw [hx] at h; injection h with h
    exact .inl ⟨h.symm, h15⟩
  · rw [hx] at h
    split at h
    · cases h
    · rename_i hc
      injection h with h
      exact .inr (.inr ⟨h.symm, Bool.eq_false_iff.mpr hc, e, hd⟩)
  · rw [hx] at h; injection h with h
    exact .inr (.inl ⟨h.symm, n, hd, he⟩)
  · rw [hx] at h; cases h

/-- A step that is refused had an operation issued, and refused it. -/
theorem step_refused {s : State} {why : Refusal} (h : step s = .refused why) :
    ∃ r rest, s.inbox = r :: rest ∧ perform r { s with inbox := rest } = .refused why := by
  cases hi : s.inbox with
  | nil =>
    unfold step at h
    rw [takeRequest_nil hi] at h
    cases h
  | cons r rest => exact ⟨r, rest, rfl, step_cons hi ▸ h⟩

/-! ### Faults without a code -/

/-- The kinds that the short layout has no row for (10_state.md rule R31, 60_exceptions.md rule R77). -/
theorem shortRow_eq_none_iff {k : FaultKind} :
    shortRow k = none ↔ k = .addressSizeTTBR ∨ (∃ l, k = .addressSize l) ∨ AtLevelThree k := by
  cases k with
  | translation l | accessFlag l | permission l | syncExternalTTW l | syncParityTTW l =>
    cases l <;> simp [shortRow, AtLevelThree]
  | domain l => cases l <;> simp [shortRow, AtLevelThree]
  | _ => simp [shortRow, AtLevelThree]

/-- The kinds that the long layout has no row for (10_state.md rule R31, 60_exceptions.md rule R77). -/
theorem longRow_eq_none_iff {k : FaultKind} : longRow k = none ↔ (∃ l, k = .domain l) ∨ k = .lockdown := by
  cases k with
  | addressSize l | translation l | accessFlag l | permission l | syncExternalTTW l | syncParityTTW l =>
    cases l <;> simp [longRow]
  | _ => simp [longRow]

/-- The kinds that an implementation cannot raise (60_exceptions.md rule R72). -/
theorem raisable_eq_false_iff {p : Params} {k : FaultKind} :
    raisable p k = false ↔ (p.featRAS = true ∧ ParityKind k) ∨ (p.hasLockdownFault = false ∧ k = .lockdown) := by
  rw [← Bool.not_eq_true, raisable_iff]
  cases p.featRAS <;> cases p.hasLockdownFault <;> simp [imp_iff_not_or, or_comm]

/-- No value is composed exactly for the faults that the selected layout cannot express (60_exceptions.md rule
R77). -/
theorem recordedValue_eq_none_iff {p : Params} {r : FaultReport} {ext : Bit} :
    recordedValue p r ext = none ↔ NoCode p r.eae r.fault := by
  unfold recordedValue NoCode
  by_cases h0 : r.eae = 0#1
  · rw [if_pos h0, Option.map_eq_none_iff, shortCode_eq, ite_eq_right_iff, imp_iff_not_or, Bool.not_eq_true,
      raisable_eq_false_iff, shortRow_eq_none_iff]
    simp only [h0, BitVec.zero_eq_one_iff, one_ne_zero, false_and, true_and, false_or]
    tauto
  · have h1 := bit_eq_one_of_ne_zero h0
    have h10 : ¬1#1 = 0#1 := by decide
    rw [if_neg h0, Option.map_eq_none_iff, longCode_eq, ite_eq_right_iff, imp_iff_not_or, Bool.not_eq_true,
      raisable_eq_false_iff, longRow_eq_none_iff]
    simp only [h1, h10, true_and, false_and, false_or]
    tauto

/-! ### The parameters are fixed -/

@[simp] theorem accessEffect_params (dir : Direction) (k : Fin 15) (n : InstanceName) (s : State) :
    (accessEffect dir k n s).params = s.params := by cases dir <;> rfl

@[simp] theorem resetCell_params (n : InstanceName) (s : State) : (resetCell n s).params = s.params := by
  rcases resetCell_cases n s with ⟨_, h⟩ | ⟨_, h⟩
  · rw [h]
  · rw [h]; rfl

@[simp] theorem warmReset_params (s : State) : (warmReset s).params = s.params := by simp [warmReset]

theorem exec_next_params {i : Instr} {s t : State} (h : exec i s = .next t) : t.params = s.params := by
  rcases exec_next h with ⟨e, _, rfl⟩ | ⟨n, k, _, _, rfl⟩
  · rfl
  · cases s.ctx.condPassed <;> simp

theorem perform_next_params {r : Request} {s t : State} (h : perform r s = .next t) : t.params = s.params := by
  cases r with
  | instruction w =>
    simp only [perform] at h
    split at h
    · exact exec_next_params h
    · cases h
  | recordFault rep =>
    obtain ⟨_, v, _, w, k, rfl, _⟩ := recordInstructionFault_next h
    rfl
  | reset kind => injection h with h; subst h; simp
  | context c => injection h with h; subst h; rfl
  | register k v => injection h with h; subst h; rfl
  | contextSync => injection h with h; subst h; rfl

/-- No step changes a parameter of the implementation (00_scope.md rule R4). -/
theorem step_next_params {s t : State} (h : step s = .next t) : t.params = s.params := by
  rcases step_next h with ⟨_, rfl⟩ | ⟨r, rest, _, hp⟩
  · rfl
  · exact perform_next_params (s := { s with inbox := rest }) hp

/-! ### Values within `WRITABLE` -/

/-- The bits a recording with this ExT bit can set: the fields of either layout, and bit 12 only where ExT is 1. -/
def recordableBits (ext : Bit) : Word := 0x0001063F#32 ||| ext.setWidth 32 <<< 12

theorem withinWritable_of_and_eq {p : Params} {v m : Word} (hm : WithinWritable p m) (hv : v &&& m = v) :
    WithinWritable p v := by
  unfold WithinWritable at *
  rw [← hv, BitVec.and_assoc, hm]

theorem withinWritable_or {p : Params} {v w : Word} (hv : WithinWritable p v) (hw : WithinWritable p w) :
    WithinWritable p (v ||| w) := by
  unfold WithinWritable at *
  have hdistrib : (v ||| w) &&& p.writable = v &&& p.writable ||| w &&& p.writable := by
    ext i hi
    simp [Bool.and_or_distrib_right]
  rw [hdistrib, hv, hw]

theorem composeShort_and_recordableBits (fnv ext : Bit) (code : BitVec 5) :
    composeShort fnv ext code &&& recordableBits ext = composeShort fnv ext code := by
  revert fnv ext code; decide

theorem composeLong_and_recordableBits (fnv ext : Bit) (code : BitVec 6) :
    composeLong fnv ext code &&& recordableBits ext = composeLong fnv ext code := by
  revert fnv ext code; decide

/-- The constraint on `WRITABLE` covers every bit a recording can set (00_scope.md rule R4). -/
theorem withinWritable_recordableBits {p : Params} {ext : Bit} (ha : admissible p = true)
    (hext : ext = 0#1 ∨ p.extClassified = true) : WithinWritable p (recordableBits ext) := by
  simp only [admissible, Bool.and_eq_true, Bool.or_eq_true, Bool.not_eq_true', beq_iff_eq] at ha
  obtain ⟨hfields, h12⟩ := ha
  have hbase : WithinWritable p 0x0001063F#32 := by rw [WithinWritable, BitVec.and_comm, hfields]
  by_cases h0 : ext = 0#1
  · subst h0; exact hbase
  · obtain rfl := bit_eq_one_of_ne_zero h0
    have hbit : p.writable.getLsbD 12 = true := by
      rcases hext with h | h
      · exact absurd h h0
      · simpa [h] using h12
    refine withinWritable_or hbase ?_
    have hpow : (1#1).setWidth 32 <<< 12 = BitVec.twoPow 32 12 := by decide
    rw [WithinWritable, hpow, BitVec.and_comm, BitVec.and_twoPow, if_pos hbit]

/-- ExT can be 1 only where External aborts are classified (60_exceptions.md rule R74). -/
theorem recordedExt_fst (r : FaultReport) (s : State) :
    (recordedExt r s).1 = 0#1 ∨ s.params.extClassified = true := by
  rcases recordedExt_cases r s with ⟨_, h⟩ | ⟨hc, _⟩ | ⟨hc, _⟩ | ⟨hc, _⟩
  · exact .inl (by rw [h])
  all_goals exact .inr hc

/-- A recorded value holds only `WRITABLE` bits (60_exceptions.md rule R76). -/
theorem withinWritable_recordedValue {r : FaultReport} {s : State} {v : Word} (ha : admissible s.params = true)
    (hv : recordedValue s.params r (recordedExt r s).1 = some v) : WithinWritable s.params v := by
  have hbits := withinWritable_recordableBits ha (recordedExt_fst r s)
  rcases recordedValue_eq_some hv with ⟨_, code, _, rfl⟩ | ⟨_, code, _, rfl⟩
  · exact withinWritable_of_and_eq hbits (composeShort_and_recordableBits _ _ _)
  · exact withinWritable_of_and_eq hbits (composeLong_and_recordableBits _ _ _)

/-! ### What keeps the invariant -/

section Operations
variable {s : State}

/-- The invariant reads the parameters, the cells, the unsynchronised values and the outcome, and nothing else. -/
theorem safeState_of_eq {t : State} (hs : SafeState s) (hp : t.params = s.params) (hc : t.cells = s.cells)
    (hu : t.unsynced = s.unsynced) (ho : t.outcome = s.outcome) : SafeState t := by
  obtain ⟨ha, hcells, hunsynced, habsent, htrap⟩ := hs
  constructor <;> simpa only [cellRead, hp, hc, hu, ho]

/-- A cell that exists may take any value within `WRITABLE`. -/
theorem safeState_cellWrite {n : InstanceName} {v : Word} (hs : SafeState s) (he : instanceExists s.params n = true)
    (hv : WithinWritable s.params v) : SafeState (cellWrite n v s) where
  admissible := hs.admissible
  cells_within m := by
    by_cases hm : m = n
    · subst hm; simpa using hv
    · rw [cellRead_cellWrite_other v s hm]; exact hs.cells_within m
  unsynced_within := hs.unsynced_within
  absent_holds_nothing m hm := by
    have hne : m ≠ n := by rintro rfl; rw [cellWrite_params, he] at hm; cases hm
    rw [cellRead_cellWrite_other v s hne]
    exact hs.absent_holds_nothing m hm
  trap_argument := hs.trap_argument

/-- A cell that exists may be remembered as holding an unsynchronised value within `WRITABLE`. -/
theorem safeState_remember {n : InstanceName} {v : Word} (hs : SafeState s) (he : instanceExists s.params n = true)
    (hv : WithinWritable s.params v) : SafeState { s with unsynced := bankSet s.unsynced n (some v) } where
  admissible := hs.admissible
  cells_within := hs.cells_within
  unsynced_within m w hw := by
    by_cases hm : m = n
    · subst hm
      rw [bankGet_bankSet_same] at hw
      injection hw with hw
      exact hw ▸ hv
    · rw [bankGet_bankSet_other _ _ hm] at hw
      exact hs.unsynced_within m w hw
  absent_holds_nothing m hm := by
    have hne : m ≠ n := by rintro rfl; rw [he] at hm; cases hm
    rw [bankGet_bankSet_other _ _ hne]
    exact hs.absent_holds_nothing m hm
  trap_argument := hs.trap_argument

/-- A software write stores and remembers the one masked value (10_state.md rule R26). -/
theorem safeState_softwareWrite {n : InstanceName} (v : Word) (hs : SafeState s)
    (he : instanceExists s.params n = true) : SafeState (softwareWrite n v s) :=
  safeState_remember (safeState_cellWrite hs he (withinWritable_storedValue s.params v)) he
    (withinWritable_storedValue s.params v)

theorem safeState_accessEffect {dir : Direction} {k : Fin 15} {n : InstanceName} (hs : SafeState s)
    (he : instanceExists s.params n = true) : SafeState (accessEffect dir k n s) := by
  cases dir
  case read => exact safeState_of_eq hs rfl rfl rfl rfl
  case write => exact safeState_softwareWrite _ hs he

theorem safeState_completeAccess (hs : SafeState s) : SafeState (completeAccess s) where
  admissible := hs.admissible
  cells_within := hs.cells_within
  unsynced_within := hs.unsynced_within
  absent_holds_nothing := hs.absent_holds_nothing
  trap_argument ec h := by rcases h with h | h <;> cases h

/-- The exception that an access decides to take carries 0x03 where it is a trap (40_sysreg_access.md rule R62). -/
theorem safeState_takeException {dir : Direction} {e : AccessException} (hs : SafeState s)
    (hd : accessDecision s.params s.ctx dir = .exception e) : SafeState (takeException e s) where
  admissible := hs.admissible
  cells_within := hs.cells_within
  unsynced_within := hs.unsynced_within
  absent_holds_nothing := hs.absent_holds_nothing
  trap_argument ec h := by
    rcases h with h | h <;> cases h
    · exact (accessDecision_eq_trap64_iff.mp hd).1
    · exact (accessDecision_eq_hypTrap_iff.mp hd).1

theorem safeState_synchronise (hs : SafeState s) : SafeState (synchronise s) := by
  have hnone : ∀ n, bankGet (synchronise s).unsynced n = none := by intro n; cases n <;> rfl
  exact
    { admissible := hs.admissible
      cells_within := hs.cells_within
      unsynced_within := fun n w hw => by rw [hnone n] at hw; cases hw
      absent_holds_nothing := fun n hn => ⟨(hs.absent_holds_nothing n hn).1, hnone n⟩
      trap_argument := hs.trap_argument }

theorem safeState_resetCell (n : InstanceName) (hs : SafeState s) : SafeState (resetCell n s) := by
  rcases resetCell_cases n s with ⟨_, h⟩ | ⟨he, h⟩
  · rw [h]; exact hs
  · rw [h]
    have hwrite := safeState_cellWrite hs he (withinWritable_storedValue s.params (Config.draw32 s.draws))
    exact safeState_of_eq hwrite rfl rfl rfl rfl

theorem safeState_warmReset (hs : SafeState s) : SafeState (warmReset s) :=
  safeState_resetCell _ (safeState_resetCell _ (safeState_resetCell _ hs))

theorem safeState_of_exec {i : Instr} {t : State} (hs : SafeState s) (h : exec i s = .next t) : SafeState t := by
  rcases exec_next h with ⟨e, hd, rfl⟩ | ⟨n, k, _, he, rfl⟩
  · exact safeState_takeException hs hd
  · refine safeState_completeAccess ?_
    split
    · exact safeState_accessEffect hs he
    · exact hs

/-- A recording leaves the composed value or an unsynchronised written one, both within `WRITABLE`, in a cell that exists
(60_exceptions.md rules R70, R76; 20_memory.md rule R45). -/
theorem safeState_of_recordInstructionFault {r : FaultReport} {t : State} (hs : SafeState s)
    (h : recordInstructionFault r s = .next t) : SafeState t := by
  obtain ⟨he, v, hv, w, k, rfl, hw⟩ := recordInstructionFault_next h
  have hwithin : WithinWritable s.params w := by
    rcases hw with rfl | ⟨_, hu⟩
    · exact withinWritable_recordedValue hs.admissible hv
    · exact hs.unsynced_within _ _ hu
  exact safeState_of_eq (safeState_cellWrite hs he hwithin) rfl rfl rfl rfl

theorem safeState_of_perform {r : Request} {t : State} (hs : SafeState s) (h : perform r s = .next t) :
    SafeState t := by
  cases r with
  | instruction w =>
    simp only [perform] at h
    split at h
    · exact safeState_of_exec hs h
    · cases h
  | recordFault rep => exact safeState_of_recordInstructionFault hs h
  | reset kind =>
    injection h with h
    rw [← h, performReset_eq]
    exact safeState_warmReset hs
  | contextSync => injection h with h; subst h; exact safeState_synchronise hs
  | context c => injection h with h; subst h; exact safeState_of_eq hs rfl rfl rfl rfl
  | register k v => injection h with h; subst h; exact safeState_of_eq hs rfl rfl rfl rfl

end Operations

/-! ### The statements -/

/-- Settles O53: taking the operation off the queue and performing it each keep the invariant. -/
theorem everyStepKeepsTheInvariant : Obligations.EveryStepKeepsTheInvariant := by
  intro s t hs h
  rcases step_next h with ⟨_, rfl⟩ | ⟨r, rest, _, hp⟩
  · exact hs
  · have htaken : SafeState { s with inbox := rest } := safeState_of_eq hs rfl rfl rfl rfl
    exact safeState_of_perform htaken hp

/-- Settles O54: by the answer of the step, and for a refusal by the operation that was refused. -/
theorem parametersAreFixedAndNoStepFaults : Obligations.ParametersAreFixedAndNoStepFaults := by
  intro s
  cases h : step s with
  | next t => exact .inl ⟨t, rfl, step_next_params h⟩
  | fault f => cases f
  | refused why =>
    obtain ⟨r, rest, hi, hp⟩ := step_refused h
    refine .inr ⟨why, rest, rfl, ?_⟩
    cases r with
    | instruction w =>
      simp only [perform] at hp
      split at hp
      · rename_i i hdec
        exact .inr (.inl ⟨w, i, hi, hdec, exec_refused (s := { s with inbox := rest }) hp⟩)
      · rename_i e hdec
        injection hp with hp
        exact .inl ⟨w, e, hi, hdec, hp.symm⟩
    | recordFault rep =>
      have hwhy := recordInstructionFault_refused hp
      rw [recordedValue_eq_none_iff] at hwhy
      exact .inr (.inr ⟨rep, hi, hwhy⟩)
    | context c => cases hp
    | register k v => cases hp
    | reset kind => cases hp
    | contextSync => cases hp

/-- Settles O52: at reset every cell exists and holds a draw masked by `WRITABLE`, and no software write and no
outcome is remembered. -/
theorem resetMeetsTheInvariant : Obligations.ResetMeetsTheInvariant where
  admissible := by decide
  cells_within n := by cases n <;> exact withinWritable_storedValue resetParams _
  unsynced_within n w hw := by cases n <;> cases hw
  absent_holds_nothing n hn := by cases n <;> cases hn
  trap_argument ec h := by rcases h with h | h <;> cases h

end Sys2Proof.Proofs
end

section
/-! PROOFS. The state of 10_state.md: the instances and the accesses that name them, two runs of one step on other
contents of the cells, the code tables, and the bits of the two layouts. -/

namespace Sys2Proof.Proofs

open Sys2Proof.Machine Sys2Proof.Safety Sys2Proof.Laws

/-! ### The answer of an access, by what is decided for it -/

section Access
variable {i : Instr} {s : State}

theorem exec_of_rtField_fifteen (h15 : rtField i = 15#4) : exec i s = .refused .rtIs15 := by
  rcases exec_cases i s with ⟨_, hx⟩ | ⟨hlt, _⟩
  · exact hx
  · rw [h15] at hlt; exact absurd hlt (by decide)

theorem exec_of_exception {e : AccessException} (h15 : rtField i ≠ 15#4)
    (hd : accessDecision s.params s.ctx (direction i) = .exception e) : exec i s = exceptionUnderCondition e s := by
  rcases exec_cases i s with ⟨h, _⟩ | ⟨_, ⟨_, he, hx⟩ | ⟨_, hn, _⟩ | ⟨_, hn, _⟩⟩
  · exact absurd h h15
  · cases hd.symm.trans he; exact hx
  · cases hd.symm.trans hn
  · cases hd.symm.trans hn

theorem exec_of_absent {n : InstanceName} (h15 : rtField i ≠ 15#4)
    (hd : accessDecision s.params s.ctx (direction i) = .access n) (habsent : instanceExists s.params n = false) :
    exec i s = .refused .noSuchInstance := by
  rcases exec_cases i s with ⟨h, _⟩ | ⟨_, ⟨_, he, _⟩ | ⟨_, _, _, hx⟩ | ⟨_, hn, hexists, _⟩⟩
  · exact absurd h h15
  · cases hd.symm.trans he
  · exact hx
  · cases hd.symm.trans hn; cases habsent.symm.trans hexists

theorem exec_of_present {n : InstanceName} (hlt : (rtField i).toNat < 15)
    (hd : accessDecision s.params s.ctx (direction i) = .access n) (hexists : instanceExists s.params n = true) :
    exec i s = okUnderCondition (accessEffect (direction i) ⟨(rtField i).toNat, hlt⟩ n) s := by
  rcases exec_cases i s with ⟨h, _⟩ | ⟨_, ⟨_, he, _⟩ | ⟨_, hn, habsent, _⟩ | ⟨_, hn, _, hx⟩⟩
  · rw [h] at hlt; exact absurd hlt (by decide)
  · cases hd.symm.trans he
  · cases hd.symm.trans hn; cases hexists.symm.trans habsent
  · cases hd.symm.trans hn; exact hx

end Access

/-! ### Two runs on other contents of the cells -/

/-- Each cell holds the same in both runs, or what that run began with. -/
def CellsAlike (before before' after after' : Banked Word) : Prop :=
  ∀ n, bankGet after' n = bankGet after n ∨
    (bankGet after n = bankGet before n ∧ bankGet after' n = bankGet before' n)

theorem cellsAlike_start (before before' : Banked Word) : CellsAlike before before' before before' :=
  fun _ => .inr ⟨rfl, rfl⟩

/-- Writing one value in both runs keeps the cells alike. -/
theorem CellsAlike.bankSet {before before' after after' : Banked Word}
    (h : CellsAlike before before' after after') (n : InstanceName) (v : Word) :
    CellsAlike before before' (bankSet after n v) (bankSet after' n v) := by
  intro m
  by_cases hm : m = n
  · subst hm; simp
  · simpa only [bankGet_bankSet_other _ _ hm] using h m

/-- Two runs that began with these cells stand in states which differ in the cells alone, each cell as above, and in the
registers only after a read. -/
def RunsAlike (read : Prop) (before before' : Banked Word) (t t' : State) : Prop :=
  ∃ cells regs, t' = { t with cells := cells, regs := regs } ∧ CellsAlike before before' t.cells cells ∧
    (¬read → regs = t.regs)

/-- Two answers of one operation: both a next state, in this relation, or both the same refusal. -/
inductive AnswersAlike (R : State → State → Prop) :
    Host.Outcome State Fault Refusal → Host.Outcome State Fault Refusal → Prop where
  | next {t t' : State} (h : R t t') : AnswersAlike R (.next t) (.next t')
  | refused (why : Refusal) : AnswersAlike R (.refused why) (.refused why)

theorem AnswersAlike.refused_iff {R : State → State → Prop} {a b : Host.Outcome State Fault Refusal}
    (h : AnswersAlike R a b) (why : Refusal) : a = .refused why ↔ b = .refused why := by
  cases h <;> simp

theorem AnswersAlike.exists_next {R : State → State → Prop} {b : Host.Outcome State Fault Refusal} {t : State}
    (h : AnswersAlike R (.next t) b) : ∃ t', b = .next t' ∧ R t t' := by
  cases h with
  | next h => exact ⟨_, rfl, h⟩

theorem AnswersAlike.mono {R Q : State → State → Prop} (hRQ : ∀ t t', R t t' → Q t t')
    {a b : Host.Outcome State Fault Refusal} (h : AnswersAlike R a b) : AnswersAlike Q a b := by
  cases h with
  | next h => exact .next (hRQ _ _ h)
  | refused why => exact .refused why

section TwoRuns
variable {read : Prop} {before before' : Banked Word} (s : State) (c : Banked Word)

/-- The registers may be told to differ where they do not. -/
theorem RunsAlike.weaken {read' : Prop} (hread : read → read') {t t' : State}
    (h : RunsAlike read before before' t t') : RunsAlike read' before before' t t' := by
  obtain ⟨cells, regs, ht, hcells, hregs⟩ := h
  exact ⟨cells, regs, ht, hcells, fun hn => hregs (hn ∘ hread)⟩

/-- An operation that keeps the cells, and does the same beside any cells, keeps the runs alike. -/
theorem runsAlike_of_cells_kept {t : State} (ht : t.cells = s.cells) :
    RunsAlike read s.cells c t { t with cells := c } :=
  ⟨c, t.regs, rfl, ht ▸ cellsAlike_start s.cells c, fun _ => rfl⟩

theorem RunsAlike.completeAccess {t t' : State} (h : RunsAlike read before before' t t') :
    RunsAlike read before before' (completeAccess t) (completeAccess t') := by
  obtain ⟨cells, regs, rfl, hcells, hregs⟩ := h
  exact ⟨cells, regs, rfl, hcells, hregs⟩

/-- A granted access moves the cells of a run into a register alone, and a value from a register, alike in both runs,
into one cell alone (40_sysreg_access.md rules R60, R61). -/
theorem accessEffect_runsAlike (dir : Direction) (k : Fin 15) (n : InstanceName) :
    RunsAlike (dir = .read) s.cells c (accessEffect dir k n s) (accessEffect dir k n { s with cells := c }) := by
  cases dir with
  | read =>
    exact ⟨c, s.regs.set k (bankGet c n), rfl, cellsAlike_start s.cells c, fun hread => absurd rfl hread⟩
  | write => exact ⟨_, s.regs, rfl, (cellsAlike_start s.cells c).bankSet n _, fun _ => rfl⟩

theorem okUnderCondition_answersAlike {effect : State → State}
    (h : RunsAlike read s.cells c (effect s) (effect { s with cells := c })) :
    AnswersAlike (RunsAlike read s.cells c) (okUnderCondition effect s)
      (okUnderCondition effect { s with cells := c }) := by
  unfold okUnderCondition
  refine .next (RunsAlike.completeAccess ?_)
  cases s.ctx.condPassed with
  | false => exact runsAlike_of_cells_kept s c rfl
  | true => exact h

theorem exceptionUnderCondition_answersAlike (e : AccessException) :
    AnswersAlike (RunsAlike read s.cells c) (exceptionUnderCondition e s)
      (exceptionUnderCondition e { s with cells := c }) := by
  unfold exceptionUnderCondition
  cases s.ctx.condPassed with
  | false => exact .refused _
  | true => exact .next (runsAlike_of_cells_kept s c rfl)

/-- An access decides and checks without reading a cell (40_sysreg_access.md rules R60, R61). -/
theorem exec_answersAlike (i : Instr) :
    AnswersAlike (RunsAlike (direction i = .read) s.cells c) (exec i s) (exec i { s with cells := c }) := by
  by_cases h15 : rtField i = 15#4
  · rw [exec_of_rtField_fifteen h15, exec_of_rtField_fifteen h15]
    exact .refused _
  · cases hd : accessDecision s.params s.ctx (direction i) with
    | exception e =>
      rw [exec_of_exception h15 hd, exec_of_exception (s := { s with cells := c }) h15 hd]
      exact exceptionUnderCondition_answersAlike s c e
    | access n =>
      cases he : instanceExists s.params n with
      | false =>
        rw [exec_of_absent h15 hd he, exec_of_absent (s := { s with cells := c }) h15 hd he]
        exact .refused _
      | true =>
        have hlt : (rtField i).toNat < 15 := by bv_omega
        rw [exec_of_present hlt hd he, exec_of_present (s := { s with cells := c }) hlt hd he]
        exact okUnderCondition_answersAlike s c (accessEffect_runsAlike s c (direction i) _ n)

/-- What a recording leaves is settled without reading a cell (20_memory.md rule R45). -/
theorem valueLeft_cells (n : InstanceName) (v : Word) :
    valueLeft n v { s with cells := c } = ((valueLeft n v s).1, { (valueLeft n v s).2 with cells := c }) := by
  unfold valueLeft
  cases s.params.syncRequired with
  | false => rfl
  | true => cases bankGet s.unsynced n <;> rfl

theorem valueLeft_snd_cells (n : InstanceName) (v : Word) : (valueLeft n v s).2.cells = s.cells := by
  rcases valueLeft_cases n v s with h | ⟨w, _, _, _, h⟩
  · rw [h]
  · rw [h]; rfl

/-- A recording stores one value in both runs, into one cell. -/
theorem storeRecorded_runsAlike (n : InstanceName) (v : Word) :
    RunsAlike read s.cells c (storeRecorded n v s) (storeRecorded n v { s with cells := c }) := by
  unfold storeRecorded
  rw [valueLeft_cells s c]
  refine ⟨bankSet c n (valueLeft n v s).1, _, rfl, ?_, fun _ => rfl⟩
  rw [cellWrite_cells, valueLeft_snd_cells]
  exact (cellsAlike_start s.cells c).bankSet n _

theorem recordInstructionFault_answersAlike (r : FaultReport) :
    AnswersAlike (RunsAlike read s.cells c) (recordInstructionFault r s)
      (recordInstructionFault r { s with cells := c }) := by
  obtain ⟨k, hk⟩ := recordedExt_state r s
  unfold recordInstructionFault
  rw [recordedExt_cells r s c]
  dsimp only
  split
  · split
    · split
      · rw [hk]; exact .next (storeRecorded_runsAlike { s with draws := k } c r.target _)
      · exact .refused _
    · exact .refused _
  · exact .refused _

/-- The reset of one cell draws alike in both runs and stores the draw in that cell alone
(70_reset_and_hazards.md rule R90). -/
theorem RunsAlike.resetCell {t t' : State} (h : RunsAlike read before before' t t') (n : InstanceName) :
    RunsAlike read before before' (resetCell n t) (resetCell n t') := by
  obtain ⟨cells, regs, rfl, hcells, hregs⟩ := h
  unfold Machine.resetCell
  dsimp only
  split
  · exact ⟨_, regs, rfl, hcells.bankSet n _, hregs⟩
  · exact ⟨cells, regs, rfl, hcells, hregs⟩

theorem warmReset_runsAlike : RunsAlike read s.cells c (warmReset s) (warmReset { s with cells := c }) :=
  (((runsAlike_of_cells_kept s c rfl).resetCell _).resetCell _).resetCell _

/-- An issued operation is a read of IFSR. -/
def IsRead (r : Request) : Prop := ∃ w i, r = .instruction w ∧ decode w = .ok i ∧ direction i = .read

/-- No operation but a read looks at what the cells hold (10_state.md rules R21, R26). -/
theorem perform_answersAlike (r : Request) :
    AnswersAlike (RunsAlike (IsRead r) s.cells c) (perform r s) (perform r { s with cells := c }) := by
  cases r with
  | instruction w =>
    simp only [perform]
    split
    · rename_i i hdec
      have hread : direction i = .read → IsRead (.instruction w) := fun h => ⟨w, i, rfl, hdec, h⟩
      exact (exec_answersAlike s c i).mono fun _ _ h => h.weaken hread
    · exact .refused _
  | recordFault rep => exact recordInstructionFault_answersAlike s c rep
  | reset kind =>
    simp only [perform, performReset_eq]
    exact .next (warmReset_runsAlike s c)
  | context ctx => exact .next (runsAlike_of_cells_kept s c rfl)
  | register k v => exact .next (runsAlike_of_cells_kept s c rfl)
  | contextSync => exact .next (runsAlike_of_cells_kept s c rfl)

/-- A step with no operation issued changes nothing. -/
theorem step_nil {s : State} (h : s.inbox = []) : step s = .next s := by
  unfold step
  rw [takeRequest_nil h]

theorem step_answersAlike :
    AnswersAlike (RunsAlike (∃ r rest, s.inbox = r :: rest ∧ IsRead r) s.cells c) (step s)
      (step { s with cells := c }) := by
  obtain ⟨queue, hi⟩ : ∃ queue, s.inbox = queue := ⟨_, rfl⟩
  cases queue with
  | nil =>
    rw [step_nil hi, step_nil (s := { s with cells := c }) hi]
    exact .next (runsAlike_of_cells_kept s c rfl)
  | cons r rest =>
    rw [step_cons hi, step_cons (s := { s with cells := c }) hi]
    exact (perform_answersAlike { s with inbox := rest } c r).mono fun _ _ h =>
      h.weaken fun hread => ⟨r, rest, hi, hread⟩

end TwoRuns

/-- Settles O57: the two runs of the step answer alike. -/
theorem storedBitsAffectOnlyWhatAReadReturns : Obligations.StoredBitsAffectOnlyWhatAReadReturns := by
  intro s c
  have halike := step_answersAlike s c
  refine ⟨halike.refused_iff, fun t ht => ?_⟩
  rw [ht] at halike
  obtain ⟨t', ht', cells, regs, rfl, hcells, hregs⟩ := halike.exists_next
  refine ⟨_, ht', rfl, rfl, rfl, rfl, rfl, rfl, hcells, fun hwrites => hregs ?_⟩
  rintro ⟨r, rest, hi, w, i, rfl, hdec, hread⟩
  cases hread.symm.trans (hwrites w rest i hi hdec)

/-! ### The instances -/

/-- An access names `IFSR_NS` or `IFSR_S` exactly where EL3 is using AArch32 or is the current level (10_state.md rule
R12). -/
theorem ne_ifsr_iff_of_reaches {p : Params} {c : Context} {dir : Direction} {n : InstanceName}
    (h : Reaches p c dir n) : n ≠ .ifsr ↔ (EL3IsAArch32 p c ∨ c.el = .el3) := by
  have hbelow : BelowEL3Reaches p c n → (n ≠ .ifsr ↔ EL3IsAArch32 p c) := by
    rintro (⟨h32, rfl⟩ | ⟨h64, rfl⟩)
    · simp [h32]
    · simp [h64]
  obtain ⟨_, ⟨hel, _, _, hn⟩ | ⟨hel, hn⟩ | ⟨hel, ⟨_, rfl⟩ | ⟨_, rfl⟩⟩⟩ := h
  · simp [hel, hbelow hn]
  · simp [hel, hbelow hn]
  · simp [hel]
  · simp [hel]

/-- With `FEAT_AA32EL1`, what exists is settled by the formula of 10_state.md rule R11 alone. -/
theorem instanceExists_of_present {p : Params} (hf : p.featAA32EL1 = true) (n : InstanceName) :
    instanceExists p n = existsWhen p n := by simp [instanceExists, hf]

theorem existsWhen_ifsr_iff {p : Params} : existsWhen p .ifsr = true ↔ (p.haveEL3 = false ∨ p.featAA64 = true) := by
  simp [existsWhen]

/-- What an access from EL1 or EL2 reaches exists where EL3 is in an Execution state that it has. -/
theorem existsWhen_of_belowEL3Reaches {p : Params} {c : Context} {n : InstanceName} (ha : ArchitecturalContext p c)
    (h : BelowEL3Reaches p c n) : existsWhen p n = true := by
  rcases h with ⟨⟨_, h32, _⟩, rfl⟩ | ⟨hnot, rfl⟩
  · exact h32
  · rw [existsWhen_ifsr_iff]
    cases hEL3 : p.haveEL3 with
    | false => exact .inl rfl
    | true =>
      cases hc : c.el3UsingAArch32 with
      | false => exact .inr (ha.el3AArch64Implemented hEL3 hc)
      | true => exact absurd ⟨hEL3, ha.el3AArch32Implemented hEL3 hc, hc⟩ hnot

theorem instanceExists_of_reaches {p : Params} {c : Context} {dir : Direction} {n : InstanceName}
    (ha : ArchitecturalContext p c) (h : Reaches p c dir n) : instanceExists p n = true := by
  obtain ⟨hf, hcases⟩ := h
  rw [instanceExists_of_present hf]
  rcases hcases with ⟨_, _, _, hn⟩ | ⟨_, hn⟩ | ⟨hel, hn⟩
  · exact existsWhen_of_belowEL3Reaches ha hn
  · exact existsWhen_of_belowEL3Reaches ha hn
  · obtain ⟨hEL3, hc⟩ := ha.atEL3 hel
    have h32 := ha.el3AArch32Implemented hEL3 hc
    rcases hn with ⟨_, rfl⟩ | ⟨_, rfl⟩ <;> exact h32

theorem instanceExists_of_featureAbsent {p : Params} (hf : p.featAA32EL1 = false) (n : InstanceName) :
    instanceExists p n = false := by simp [instanceExists, hf]

/-- A reset finds nothing to do at a name that does not exist (70_reset_and_hazards.md rule R90). -/
theorem resetCell_of_absent {n : InstanceName} {s : State} (h : instanceExists s.params n = false) :
    resetCell n s = s := by
  rcases resetCell_cases n s with ⟨_, hr⟩ | ⟨he, _⟩
  · exact hr
  · cases h.symm.trans he

/-- Settles O27: by the table of the instances an access reaches. -/
theorem namedInstancesExistOrTheAccessIsRefused : Obligations.NamedInstancesExistOrTheAccessIsRefused := by
  refine ⟨fun p c dir n hd => ?_, fun p c dir n ha hd => ?_, fun i s n h15 hd he => ?_⟩
  · exact ne_ifsr_iff_of_reaches (accessDecision_eq_access_iff.mp hd)
  · exact instanceExists_of_reaches ha (accessDecision_eq_access_iff.mp hd)
  · exact exec_of_absent h15 hd he

/-- Settles O28: no name exists, so a reset finds nothing to draw for, and an access is decided before it names any. -/
theorem withoutTheFeatureTheRegisterIsAbsent : Obligations.WithoutTheFeatureTheRegisterIsAbsent := by
  intro s hf
  have habsent := instanceExists_of_featureAbsent hf
  refine ⟨habsent, fun i => ?_, fun r => ?_, fun kind => ?_⟩
  · split
    · exact exec_of_rtField_fifteen ‹_›
    · exact exec_of_exception ‹_› (accessDecision_eq_undefined_iff.mpr (.inl hf))
  · simp [recordInstructionFault, hf]
  · simp [warmReset, resetCell_of_absent, habsent]

/-- Settles O33: the write stores in the reached cell alone, and `IFSR32_EL2` reads the cell `IFSR`. -/
theorem ifsrIsTheStorageOfIFSR32EL2 : Obligations.IFSRIsTheStorageOfIFSR32EL2 := by
  intro i t s n hdir hrt hreaches he hcond
  refine ⟨_, exec_of_reaches hrt (hdir ▸ hreaches) he hcond, ?_⟩
  have hcell : ifsr32EL2 (completeAccess (accessEffect (direction i) t n s)) =
      cellRead .ifsr (softwareWrite n (regRead t s) s) := by rw [hdir]; rfl
  rw [hcell]
  constructor
  · rintro rfl
    exact cellRead_softwareWrite_same _ _ s
  · intro hn
    exact cellRead_softwareWrite_other _ s hn.symm

/-- Settles O26: by the formulas of 10_state.md rule R11 and the rules of reading after writing a cell. -/
theorem instancesExistAsTheParametersSayAndAreSeparate :
    Obligations.InstancesExistAsTheParametersSayAndAreSeparate := by
  refine ⟨fun p hf => ?_, fun s n m v => bankGet_bankSet s.cells n m v⟩
  simp only [instanceExists_of_present hf]
  exact ⟨existsWhen_ifsr_iff, Iff.rfl, Iff.rfl⟩

/-! ### The code tables -/

/-- Where no two rows of a table share their key, looking the key of a row up finds that row. -/
theorem find?_eq_some_iff_mem {α β : Type} [DecidableEq β] {l : List α} {key : α → β} (hl : (l.map key).Nodup)
    {a : α} {b : β} : l.find? (fun row => key row == b) = some a ↔ a ∈ l ∧ key a = b := by
  constructor
  · intro h
    exact ⟨List.mem_of_find?_eq_some h, by simpa using List.find?_some h⟩
  · rintro ⟨ha, hab⟩
    have hfound : (l.find? (fun row => key row == b)).isSome := List.find?_isSome.mpr ⟨a, ha, by simpa using hab⟩
    obtain ⟨a', ha'⟩ := Option.isSome_iff_exists.mp hfound
    have hab' : key a' = b := by simpa using List.find?_some ha'
    rw [ha', List.inj_on_of_nodup_map hl (List.mem_of_find?_eq_some ha') ha (hab'.trans hab.symm)]

section Table
variable {w : Nat} {table : List (BitVec w × FaultKind)} (p : Params) {code : BitVec w} {k : FaultKind}

/-- In a table of distinct kinds, the code looked up for a kind is the one it has a row with. -/
theorem codeOfKind_eq_some_iff (hkinds : (table.map Prod.snd).Nodup) :
    (table.find? (fun row => row.2 == k)).map (fun row => row.1) = some code ↔ (code, k) ∈ table := by
  simp only [Option.map_eq_some_iff, find?_eq_some_iff_mem hkinds]
  constructor
  · rintro ⟨row, ⟨hmem, rfl⟩, rfl⟩; exact hmem
  · intro hmem; exact ⟨_, ⟨hmem, rfl⟩, rfl⟩

/-- In a table of distinct codes, a code reads as a kind exactly where they have a row together that applies. -/
theorem kindOfRow_find?_eq_kind_iff (hcodes : (table.map Prod.fst).Nodup) :
    kindOfRow p (table.find? (fun row => row.1 == code)) = .kind k ↔ rowApplies p k = true ∧ (code, k) ∈ table := by
  have hrow : ∀ o : Option (BitVec w × FaultKind),
      kindOfRow p o = .kind k ↔ rowApplies p k = true ∧ ∃ c, o = some (c, k) := by
    rintro (_ | ⟨c, k'⟩)
    · simp [kindOfRow]
    · by_cases hk : k' = k
      · subst hk; simp [kindOfRow]
      · simp only [kindOfRow]; split <;> simp [hk]
  simp [hrow, find?_eq_some_iff_mem hcodes]

/-- A code reads as `Reserved` where it has no row, or a parity or ECC row where FEAT_RAS is implemented
(10_state.md rules R20, R24). -/
theorem kindOfRow_eq_reserved_iff (row : Option (BitVec w × FaultKind)) :
    kindOfRow p row = .reserved ↔ row = none ∨ (p.featRAS = true ∧ row.any (fun r => isParity r.2) = true) := by
  rcases row with _ | row
  · simp [kindOfRow]
  · cases hp : isParity row.2 <;> cases hr : p.featRAS <;> simp [kindOfRow, rowApplies, hp, hr]

end Table

theorem shortTable_codes_nodup : (shortTable.map Prod.fst).Nodup := by decide

theorem shortTable_kinds_nodup : (shortTable.map Prod.snd).Nodup := by decide

theorem longTable_codes_nodup : (longTable.map Prod.fst).Nodup := by decide

theorem longTable_kinds_nodup : (longTable.map Prod.snd).Nodup := by decide

theorem shortCode_eq_some_iff {p : Params} {k : FaultKind} {fs : BitVec 5} :
    shortCode p k = some fs ↔ raisable p k = true ∧ (fs, k) ∈ shortTable := by
  rw [shortCode, Option.ite_none_right_eq_some, codeOfKind_eq_some_iff shortTable_kinds_nodup]

theorem longCode_eq_some_iff {p : Params} {k : FaultKind} {st : BitVec 6} :
    longCode p k = some st ↔ raisable p k = true ∧ (st, k) ∈ longTable := by
  rw [longCode, Option.ite_none_right_eq_some, codeOfKind_eq_some_iff longTable_kinds_nodup]

theorem shortKind_eq_kind_iff {p : Params} {k : FaultKind} {fs : BitVec 5} :
    shortKind p fs = .kind k ↔ rowApplies p k = true ∧ (fs, k) ∈ shortTable :=
  kindOfRow_find?_eq_kind_iff p shortTable_codes_nodup

theorem longKind_eq_kind_iff {p : Params} {k : FaultKind} {st : BitVec 6} :
    longKind p st = .kind k ↔ rowApplies p k = true ∧ (st, k) ∈ longTable :=
  kindOfRow_find?_eq_kind_iff p longTable_codes_nodup

theorem rowApplies_of_raisable {p : Params} {k : FaultKind} (h : raisable p k = true) : rowApplies p k = true := by
  simp only [raisable, Bool.and_eq_true] at h
  exact h.1

/-- Where a Lockdown fault is one the implementation has, the kinds it can raise are those whose row applies
(60_exceptions.md rule R72). -/
theorem raisable_eq_rowApplies {p : Params} {k : FaultKind} (h : k = .lockdown → p.hasLockdownFault = true) :
    raisable p k = rowApplies p k := by
  by_cases hk : k = .lockdown
  · simp [raisable, h hk]
  · simp [raisable, hk]

/-- Settles O47: writing and reading a code both say that the two stand in a row together. -/
theorem codesAndKindsAgree : Obligations.CodesAndKindsAgree := by
  intro p k hlock
  refine ⟨fun fs => ?_, fun st => ?_⟩
  · rw [shortCode_eq_some_iff, shortKind_eq_kind_iff, raisable_eq_rowApplies hlock]
  · rw [longCode_eq_some_iff, longKind_eq_kind_iff, raisable_eq_rowApplies hlock]

/-- Settles O41: the recorded value is composed of a code that reads as the fault. -/
theorem aRecordedValueDecodesToItsFault : Obligations.ARecordedValueDecodesToItsFault := by
  intro r s t hs h
  obtain ⟨v, hv, hcell, _⟩ := recordInstructionFault_synchronised hs h
  have h01 : ¬0#1 = 1#1 := by decide
  rw [hcell]
  rcases recordedValue_eq_some hv with ⟨heae, code, hcode, rfl⟩ | ⟨heae, code, hcode, rfl⟩
  · obtain ⟨_, _, hlpae, hfs, hres0⟩ := composeShort_fields (fnvBit r.fault r.ifarValid) (recordedExt r s).1 code
    obtain ⟨hraisable, hrow⟩ := shortCode_eq_some_iff.mp hcode
    refine ⟨fun _ => ⟨?_, hlpae, hres0⟩, fun h1 => absurd (heae.symm.trans h1) h01⟩
    simp only [decodeShort, hfs]
    exact shortKind_eq_kind_iff.mpr ⟨rowApplies_of_raisable hraisable, hrow⟩
  · obtain ⟨_, _, hlpae, hst, hres0⟩ := composeLong_fields (fnvBit r.fault r.ifarValid) (recordedExt r s).1 code
    obtain ⟨hraisable, hrow⟩ := longCode_eq_some_iff.mp hcode
    refine ⟨fun h0 => absurd (h0.symm.trans heae) h01, fun _ => ⟨?_, hlpae, hres0⟩⟩
    simp only [decodeLong, hst]
    exact longKind_eq_kind_iff.mpr ⟨rowApplies_of_raisable hraisable, hrow⟩

/-- The table of 10_state.md rule R31 has the codes of the two tables of rules R19 and R23. -/
theorem kindRows_codes : ∀ row ∈ kindRows, shortRow row.1 = row.2.1 ∧ longRow row.1 = row.2.2 := by decide

theorem mem_kindRows (k : FaultKind) : k ∈ kindRows.map (fun row => row.1) := by
  cases k with
  | addressSize l | translation l | accessFlag l | permission l | syncExternalTTW l | syncParityTTW l =>
    cases l <;> decide
  | domain l => cases l <;> decide
  | _ => decide

theorem codes_of_not_raisable {p : Params} {k : FaultKind} (h : raisable p k = false) :
    shortCode p k = none ∧ longCode p k = none := by simp [shortCode, longCode, h]

/-- Settles O44: a kind that can be raised has the codes of its row, and no other kind has codes. -/
theorem everyFaultKindHasItsTabulatedCodes : Obligations.EveryFaultKindHasItsTabulatedCodes := by
  refine ⟨rfl, by decide, mem_kindRows, fun p row hrow => ?_⟩
  refine ⟨fun hras hlock => ?_, fun hras hk => ?_, fun hlock hk => ?_⟩
  · have hraisable : raisable p row.1 = true := by
      rw [raisable_iff]
      exact ⟨fun hk => hras.resolve_right (not_not_intro hk), fun hk => hlock.resolve_right (not_not_intro hk)⟩
    rw [shortCode_eq, longCode_eq, if_pos hraisable, if_pos hraisable]
    exact kindRows_codes row hrow
  · exact codes_of_not_raisable (raisable_eq_false_iff.mpr (.inl ⟨hras, hk⟩))
  · exact codes_of_not_raisable (raisable_eq_false_iff.mpr (.inr ⟨hlock, hk⟩))

/-- The FS values without a row (10_state.md rule R20). -/
theorem shortTable_no_row_iff : ∀ fs : BitVec 5, shortTable.find? (fun row => row.1 == fs) = none ↔
    fs ∈ [0b00000#5, 0b00100#5, 0b01010#5, 0b10001#5, 0b10010#5, 0b10011#5, 0b10101#5, 0b10110#5, 0b10111#5,
      0b11000#5, 0b11010#5, 0b11011#5, 0b11101#5, 0b11111#5] := by decide

/-- The FS values of the parity or ECC rows (10_state.md rule R19). -/
theorem shortTable_parity_row_iff :
    ∀ fs : BitVec 5, (shortTable.find? (fun row => row.1 == fs)).any (fun row => isParity row.2) = true ↔
      fs ∈ [0b11001#5, 0b11100#5, 0b11110#5] := by decide

/-- Settles O45: a value is reserved without a row, or with a parity row that does not apply. -/
theorem reservedFSValuesAreTheListedOnes : Obligations.ReservedFSValuesAreTheListedOnes := by
  intro p fs
  rw [shortKind, kindOfRow_eq_reserved_iff, shortTable_no_row_iff, shortTable_parity_row_iff]

/-- The STATUS values without a row (10_state.md rule R24). -/
theorem longTable_no_row_iff : ∀ st : BitVec 6, longTable.find? (fun row => row.1 == st) = none ↔
    (st ∈ [0b000100#6, 0b001000#6, 0b001100#6, 0b010001#6, 0b010010#6, 0b010011#6, 0b010100#6, 0b011001#6,
        0b011010#6, 0b011011#6, 0b011100#6, 0b100000#6] ∨
      (0b100011#6 ≤ st ∧ st ≤ 0b101111#6) ∨ 0b110001#6 ≤ st) := by decide

/-- The STATUS values of the parity or ECC rows (10_state.md rule R23). -/
theorem longTable_parity_row_iff :
    ∀ st : BitVec 6, (longTable.find? (fun row => row.1 == st)).any (fun row => isParity row.2) = true ↔
      st ∈ [0b011000#6, 0b011101#6, 0b011110#6, 0b011111#6] := by decide

/-- Settles O46: as for FS, from the table of STATUS. -/
theorem reservedSTATUSValuesAreTheListedOnes : Obligations.ReservedSTATUSValuesAreTheListedOnes := by
  intro p st
  rw [longKind, kindOfRow_eq_reserved_iff, longTable_no_row_iff, longTable_parity_row_iff]
  simp only [or_assoc]

/-! ### The bits of the two layouts -/

/-- The reserved bits of the short layout (10_state.md rule R16). -/
theorem res0Short_bit : ∀ k < 32, res0Short.getLsbD k = true ↔
    (17 ≤ k ∨ (13 ≤ k ∧ k ≤ 15) ∨ k = 11 ∨ (4 ≤ k ∧ k ≤ 8)) := by decide

/-- The reserved bits of the long layout (10_state.md rule R22). -/
theorem res0Long_bit : ∀ k < 32, res0Long.getLsbD k = true ↔
    (17 ≤ k ∨ (13 ≤ k ∧ k ≤ 15) ∨ (10 ≤ k ∧ k ≤ 11) ∨ (6 ≤ k ∧ k ≤ 8)) := by decide

theorem fieldFnV_bit (v : Word) : (fieldFnV v).getLsbD 0 = v.getLsbD 16 := by simp [fieldFnV]

theorem fieldExT_bit (v : Word) : (fieldExT v).getLsbD 0 = v.getLsbD 12 := by simp [fieldExT]

theorem fieldLPAE_bit (v : Word) : (fieldLPAE v).getLsbD 0 = v.getLsbD 9 := by simp [fieldLPAE]

theorem fieldFS_bit_four (v : Word) : (fieldFS v).getLsbD 4 = v.getLsbD 10 := by
  rw [fieldFS, BitVec.getLsbD_append]; simp

theorem fieldFS_bit_lt {k : Nat} (hk : k < 4) (v : Word) : (fieldFS v).getLsbD k = v.getLsbD k := by
  rw [fieldFS, BitVec.getLsbD_append]; simp [hk]

theorem fieldSTATUS_bit {k : Nat} (hk : k < 6) (v : Word) : (fieldSTATUS v).getLsbD k = v.getLsbD k := by
  simp [fieldSTATUS, hk]

/-- Settles O58: bit by bit from the fields and the reserved masks. -/
theorem eachLayoutAssignsTheBitsOfItsTable : Obligations.EachLayoutAssignsTheBitsOfItsTable := by
  refine fun p v => ⟨⟨fieldFnV_bit v, fieldExT_bit v, fieldLPAE_bit v, fieldFS_bit_four v,
    fun k hk => fieldFS_bit_lt hk v, fun k hk => ?_⟩,
    ⟨fieldFnV_bit v, fieldExT_bit v, fieldLPAE_bit v, fun k hk => fieldSTATUS_bit hk v, fun k hk => ?_⟩⟩
  · simp only [decodeShort, BitVec.getLsbD_and, Bool.and_eq_true, res0Short_bit k hk]
  · simp only [decodeLong, BitVec.getLsbD_and, Bool.and_eq_true, res0Long_bit k hk]

/-- A reserved bit of a value is read back from its reserved bits. -/
theorem getLsbD_eq_of_and_eq {v w m : Word} (h : v &&& m = w &&& m) {k : Nat} (hk : m.getLsbD k = true) :
    v.getLsbD k = w.getLsbD k := by
  simpa [hk] using congrArg (fun x : Word => x.getLsbD k) h

theorem decodeShort_injective (p : Params) : Function.Injective (decodeShort p) := by
  intro v w h
  injection h with hfnv hext hlpae hfs _ hres0
  apply BitVec.eq_of_getLsbD_eq
  intro k hk
  by_cases hr : res0Short.getLsbD k = true
  · exact getLsbD_eq_of_and_eq hres0 hr
  · rw [res0Short_bit k hk] at hr
    obtain rfl | rfl | rfl | rfl | hlow : k = 16 ∨ k = 12 ∨ k = 9 ∨ k = 10 ∨ k < 4 := by omega
    · rw [← fieldFnV_bit, ← fieldFnV_bit, hfnv]
    · rw [← fieldExT_bit, ← fieldExT_bit, hext]
    · rw [← fieldLPAE_bit, ← fieldLPAE_bit, hlpae]
    · rw [← fieldFS_bit_four, ← fieldFS_bit_four, hfs]
    · rw [← fieldFS_bit_lt hlow, ← fieldFS_bit_lt hlow, hfs]

theorem decodeLong_injective (p : Params) : Function.Injective (decodeLong p) := by
  intro v w h
  injection h with hfnv hext hlpae hst _ hres0
  apply BitVec.eq_of_getLsbD_eq
  intro k hk
  by_cases hr : res0Long.getLsbD k = true
  · exact getLsbD_eq_of_and_eq hres0 hr
  · rw [res0Long_bit k hk] at hr
    obtain rfl | rfl | rfl | hlow : k = 16 ∨ k = 12 ∨ k = 9 ∨ k < 6 := by omega
    · rw [← fieldFnV_bit, ← fieldFnV_bit, hfnv]
    · rw [← fieldExT_bit, ← fieldExT_bit, hext]
    · rw [← fieldLPAE_bit, ← fieldLPAE_bit, hlpae]
    · rw [← fieldSTATUS_bit hlow, ← fieldSTATUS_bit hlow, hst]

/-- Settles O48: every bit is a field's or a reserved one. -/
theorem eitherLayoutCoversEveryBit : Obligations.EitherLayoutCoversEveryBit :=
  fun p _ _ => ⟨fun h => decodeShort_injective p h, fun h => decodeLong_injective p h⟩

/-- Settles O49: the masks are closed values, compared bit by bit. -/
theorem theMasksPartTheWord : Obligations.TheMasksPartTheWord := by
  unfold Obligations.TheMasksPartTheWord
  decide

end Sys2Proof.Proofs
end

section
/-! PROOFS. 20_memory.md: the steps that perform the issued operations, what an access moves and what it leaves alone,
and the order of writes, recordings and reads. -/

namespace Sys2Proof.Proofs

open Sys2Proof.Machine Sys2Proof.Safety Sys2Proof.Laws

/-! ### Steps -/

section Step
variable {s : State} {w : InstrWords} {rest : List Request} {i : Instr}

theorem step_instruction (hi : s.inbox = .instruction w :: rest) (hdec : decode w = .ok i) :
    step s = exec i { s with inbox := rest } := by
  rw [step_cons hi, perform, hdec]

theorem step_notIFSR {e : DecodeReject} (hi : s.inbox = .instruction w :: rest) (hdec : decode w = .error e) :
    step s = .refused (.notIFSR e) := by
  rw [step_cons hi, perform, hdec]

/-- A step on a granted access performs it whole (20_memory.md rules R42, R45). -/
theorem step_of_reaches {dir : Direction} {t : Fin 15} {n : InstanceName} (hi : s.inbox = .instruction w :: rest)
    (hdec : decode w = .ok i) (hdir : direction i = dir) (hrt : rtField i = BitVec.ofNat 4 t)
    (hr : Reaches s.params s.ctx dir n) (he : instanceExists s.params n = true) (hc : s.ctx.condPassed = true) :
    step s = .next (completeAccess (accessEffect dir t n { s with inbox := rest })) := by
  subst hdir
  rw [step_instruction hi hdec]
  exact exec_of_reaches hrt hr he hc

end Step

theorem decode_of_decodeTableWord {nbits w : Nat} {i : Instr} (h : decodeTableWord nbits w = some i) :
    decode (tableWords nbits w) = .ok i := by
  unfold decodeTableWord at h
  split at h
  · injection h with h
    exact h ▸ ‹_›
  · cases h

/-- Settles O8: the step on the operation issued first, by what its words decode to. -/
theorem stepRunsTheDecodedInstruction : Obligations.StepRunsTheDecodedInstruction :=
  fun _ _ _ hi => ⟨fun _ hdec => step_instruction hi hdec, fun _ hdec => step_notIFSR hi hdec⟩

/-- Settles O9: the step is the operation itself, on the state without it. -/
theorem environmentOperationsComplete : Obligations.EnvironmentOperationsComplete := by
  intro s rest
  refine ⟨fun c hi => ?_, fun t v hi => ?_, fun hi => ?_, fun kind hi => ?_, step_nil⟩
  · rw [step_cons hi]; rfl
  · rw [step_cons hi]; rfl
  · rw [step_cons hi]; rfl
  · rw [step_cons hi, perform, performReset_eq]

/-- Settles O10: the placed words stand first in the queue, and taking them gives the state back. -/
theorem fetchWordIsTheNextInstructionRun : Obligations.FetchWordIsTheNextInstructionRun := by
  intro s nbits w i h
  have hi : (s.withFetchWord nbits w).inbox = .instruction (tableWords nbits w) :: s.inbox := issueFirst_inbox s _
  exact step_instruction hi (decode_of_decodeTableWord h)

/-! ### What an access moves and what it leaves alone -/

/-- What an access that answers a next state has done: it took an exception, completed without effect under a failed
condition, or had its effect on the register it names and the cell it reaches (40_sysreg_access.md rules R60 to R62). -/
theorem exec_next_effect {i : Instr} {s t : State} (h : exec i s = .next t) :
    (∃ e, t = takeException e s) ∨ t = completeAccess s ∨
      ∃ n k, k.val = (rtField i).toNat ∧ Reaches s.params s.ctx (direction i) n ∧ s.ctx.condPassed = true ∧
        t = completeAccess (accessEffect (direction i) k n s) := by
  rcases exec_next h with ⟨e, _, ht⟩ | ⟨n, _, hd, he, _⟩
  · exact .inl ⟨e, ht⟩
  · have h15 : rtField i ≠ 15#4 := fun h15 => by rw [exec_of_rtField_fifteen h15] at h; cases h
    have hlt : (rtField i).toNat < 15 := by bv_omega
    rw [exec_of_present hlt hd he, okUnderCondition] at h
    injection h with h
    cases hc : s.ctx.condPassed with
    | false => rw [hc] at h; exact .inr (.inl h.symm)
    | true =>
      rw [hc] at h
      exact .inr (.inr ⟨n, ⟨_, hlt⟩, rfl, accessDecision_eq_access_iff.mp hd, rfl, h.symm⟩)

/-- The effect of a read copies the cell into the register (40_sysreg_access.md rule R60). -/
@[simp] theorem accessEffect_read_regs (t : Fin 15) (n : InstanceName) (s : State) :
    (accessEffect .read t n s).regs = s.regs.set t (cellRead n s) := rfl

/-- A completed write has stored the register in the cell, under `WRITABLE` (40_sysreg_access.md rule R61). -/
theorem cellRead_of_completed_write (t : Fin 15) (n : InstanceName) (s : State) :
    cellRead n (completeAccess (accessEffect .write t n s)) = s.regs[t] &&& s.params.writable :=
  cellRead_softwareWrite_same n _ s

/-- Settles O13: a read copies the word, and a write copies it under the mask `WRITABLE`. -/
theorem everyBitMovesToItsOwnPlace : Obligations.EveryBitMovesToItsOwnPlace := by
  intro i t s n hrt hr he hc
  refine ⟨_, exec_of_reaches hrt hr he hc, fun hdir k _ => ?_, fun hdir k _ => ?_⟩
  · simp [hdir]
  · rw [hdir, cellRead_of_completed_write, BitVec.getLsbD_and]

/-- Settles O29: an exception and a completion set the outcome alone, and the effect of a read is one register write. -/
theorem aReadChangesOnlyItsRegister : Obligations.AReadChangesOnlyItsRegister := by
  intro i s t hdir h
  rcases exec_next_effect h with ⟨e, rfl⟩ | rfl | ⟨n, k, hk, _, _, rfl⟩
  · exact ⟨rfl, rfl, rfl, rfl, rfl, rfl, fun _ _ => rfl⟩
  · exact ⟨rfl, rfl, rfl, rfl, rfl, rfl, fun _ _ => rfl⟩
  · rw [hdir]
    refine ⟨rfl, rfl, rfl, rfl, rfl, rfl, fun m hm => ?_⟩
    exact regRead_regWrite_other _ s fun hmk => hm (hmk ▸ hk)

/-- Settles O30: the effect of a write is one store, in the cell that the rules of access reach. -/
theorem aWriteChangesOnlyTheReachedInstance : Obligations.AWriteChangesOnlyTheReachedInstance := by
  intro i s t hdir h
  rcases exec_next_effect h with ⟨e, rfl⟩ | rfl | ⟨n, k, _, hr, hc, rfl⟩
  · exact ⟨rfl, rfl, rfl, rfl, rfl, fun _ _ => ⟨rfl, rfl⟩⟩
  · exact ⟨rfl, rfl, rfl, rfl, rfl, fun _ _ => ⟨rfl, rfl⟩⟩
  · rw [hdir] at hr ⊢
    refine ⟨rfl, rfl, rfl, rfl, rfl, fun m hm => ?_⟩
    have hmn : m ≠ n := fun hmn => hm ⟨hmn ▸ hr, hc⟩
    exact ⟨bankGet_bankSet_other _ _ hmn, bankGet_bankSet_other _ _ hmn⟩

/-! ### Recordings that complete -/

section Recording
variable {s : State} {n : InstanceName} {v : Word}

/-- With its target present and a value to compose, a recording completes (60_exceptions.md rule R70). -/
theorem recordInstructionFault_of_value {r : FaultReport} (he : instanceExists s.params r.target = true)
    (hv : recordedValue s.params r (recordedExt r s).1 = some v) :
    recordInstructionFault r s = .next (storeRecorded r.target v (recordedExt r s).2) := by
  simp only [recordInstructionFault, present_of_instanceExists he, he, hv, if_true]

theorem storeRecorded_synchronised (h : Synchronised n s) : storeRecorded n v s = cellWrite n v s := by
  rw [storeRecorded, valueLeft_synchronised h]

/-- Over an unsynchronised write, under `SYNC_REQUIRED`, a draw settles which of the two values is left (20_memory.md
rule R45). -/
theorem cellRead_storeRecorded_unsynchronised {w : Word} (hs : s.params.syncRequired = true)
    (hu : bankGet s.unsynced n = some w) :
    cellRead n (storeRecorded n v s) = if Config.draw1 s.draws = 1#1 then v else w := by
  rw [storeRecorded, cellRead_cellWrite_same, valueLeft, hs, hu]
  rfl

theorem synchronised_synchronise (n : InstanceName) (s : State) : Synchronised n (synchronise s) :=
  .inr (by cases n <;> rfl)

/-- The ExT bit of a recording, and the state after it, do not depend on what waits in the queue. -/
theorem recordedExt_inbox (r : FaultReport) (s : State) (rest : List Request) :
    recordedExt r { s with inbox := rest } = ((recordedExt r s).1, { (recordedExt r s).2 with inbox := rest }) := by
  unfold recordedExt
  cases s.params.extClassified <;> cases isExternalAbort r.fault <;> cases isParity r.fault <;> simp [drawBit]

/-- A step on a synchronised recording with a value to compose stores it whole, and only the count of draws moves
besides (20_memory.md rule R45, 60_exceptions.md rule R76). -/
theorem step_recordFault_synchronised {r : FaultReport} {rest : List Request} (hi : s.inbox = .recordFault r :: rest)
    (he : instanceExists s.params r.target = true) (hs : Synchronised r.target s)
    (hv : recordedValue s.params r (recordedExt r s).1 = some v) :
    ∃ k, step s = .next { cellWrite r.target v s with inbox := rest, draws := k } := by
  obtain ⟨k, hk⟩ := recordedExt_state r s
  have hvalue : recordedValue s.params r (recordedExt r { s with inbox := rest }).1 = some v := by
    rw [recordedExt_inbox]; exact hv
  refine ⟨k, ?_⟩
  rw [step_cons hi, perform, recordInstructionFault_of_value (s := { s with inbox := rest }) he hvalue,
    recordedExt_inbox, hk, storeRecorded_synchronised (s := { s with inbox := rest, draws := k }) hs]
  rfl

end Recording

/-! ### The order of operations -/

/-- Settles O31: the write leaves the inputs alone, so the read after it reaches the cell it stored in. -/
theorem aReadAfterAWriteReturnsWhatWasStored : Obligations.AReadAfterAWriteReturnsWhatWasStored := by
  intro s w1 w2 rest iw ir tw tr n hi hw1 hw2 hwrite hread htw htr hrw hrr he hc
  have hcell := cellRead_of_completed_write tw n { s with inbox := .instruction w2 :: rest }
  exact ⟨_, _, step_of_reaches hi hw1 hwrite htw hrw he hc, step_of_reaches rfl hw2 hread htr hrr he hc, hcell,
    congrArg (s.regs.set tr) hcell⟩

/-- Settles O32: the recording leaves the inputs alone and its value in the cell the read reaches. -/
theorem aReadAfterARecordingReturnsTheRecordedValue : Obligations.AReadAfterARecordingReturnsTheRecordedValue := by
  intro s r w rest i t v hi hdec hread hrt hr he hc hs hv
  obtain ⟨k, hstep1⟩ := step_recordFault_synchronised hi he hs hv
  exact ⟨_, _, hstep1, step_of_reaches rfl hdec hread hrt hr he hc,
    congrArg (s.regs.set t) (cellRead_cellWrite_same r.target v s)⟩

/-- Settles O42: by what a recording leaves, by the draw over an unsynchronised write, and by what a context
synchronisation event clears. -/
theorem anUnsynchronisedWriteMayStandAgainstARecording :
    Obligations.AnUnsynchronisedWriteMayStandAgainstARecording := by
  refine ⟨fun r s t h => ?_, fun r s w v hs hu he hv => ?_, synchronised_synchronise⟩
  · obtain ⟨_, v, hv, w, k, rfl, hw⟩ := recordInstructionFault_next h
    have hcell : cellRead r.target { cellWrite r.target w s with draws := k } = w :=
      cellRead_cellWrite_same r.target w s
    exact ⟨v, hv, hcell.symm ▸ hw⟩
  · obtain ⟨k, hk⟩ := recordedExt_state r s
    refine ⟨k, _, recordInstructionFault_of_value he hv, ?_⟩
    rw [hk]
    exact cellRead_storeRecorded_unsynchronised (s := { s with draws := k }) hs hu

end Sys2Proof.Proofs
end

section
/-! PROOFS. 30_encoding.md: the fields of the words, the decoder and the encoder against each other, the words of every
other register, the assembler, and the checks of `Rt` and of the condition. -/

namespace Sys2Proof.Proofs

open Sys2Proof.Machine Sys2Proof.Safety Sys2Proof.Laws

/-! ### Bits [23:0] of an accessor -/

section Body
variable (dir : Direction) (p : EncodingPoint) (rt : BitVec 4)

/-- A field of bits [23:0], the width left as the sum of the eight fields' widths so that each can be split
off. -/
theorem transferBody_extractLsb' (lo len : Nat) :
    (transferBody dir p rt).extractLsb' lo len =
      BitVec.extractLsb' (n := 3 + 1 + 4 + 4 + 4 + 3 + 1 + 4) lo len
        (p.opc1 ++ directionBit dir ++ p.crn ++ rt ++ p.coproc ++ p.opc2 ++ 1#1 ++ p.crm) := rfl

/-- Bits [23:0] name the point they were made of (30_encoding.md rule R52). -/
@[simp] theorem bodyPoint_transferBody : bodyPoint (transferBody dir p rt) = p := by
  simp [bodyPoint, transferBody_extractLsb', BitVec.extractLsb'_append_eq_ite, -Nat.reduceAdd]

@[simp] theorem transferBody_directionBit : (transferBody dir p rt).extractLsb' 20 1 = directionBit dir := by
  simp [transferBody_extractLsb', BitVec.extractLsb'_append_eq_ite, -Nat.reduceAdd]

@[simp] theorem transferBody_rt : (transferBody dir p rt).extractLsb' 12 4 = rt := by
  simp [transferBody_extractLsb', BitVec.extractLsb'_append_eq_ite, -Nat.reduceAdd]

@[simp] theorem transferBody_bit_four : (transferBody dir p rt).extractLsb' 4 1 = 1#1 := by
  simp [transferBody_extractLsb', BitVec.extractLsb'_append_eq_ite, -Nat.reduceAdd]

/-- Bits [23:0] of an access to IFSR are read back as its direction and register field (30_encoding.md rules R52,
R55). -/
theorem decodeBody_transferBody_ifsrPoint : decodeBody (transferBody dir ifsrPoint rt) = .ok (dir, rt) := by
  cases dir <;> simp [decodeBody, directionBit]

/-- Bits [23:0] of an `MRC` or `MCR` at another point are another register's (30_encoding.md rule R56). -/
theorem decodeBody_transferBody_other {p : EncodingPoint} (hp : p ≠ ifsrPoint) :
    decodeBody (transferBody dir p rt) = .error .otherRegister := by
  simp [decodeBody, hp]

end Body

theorem directionBit_eq_one_iff {dir : Direction} : directionBit dir = 1#1 ↔ dir = .read := by
  cases dir <;> decide

/-! ### The decoder on words given by their parts -/

theorem isCondition_iff {cond : BitVec 4} : isCondition cond = true ↔ cond ≠ 0b1111#4 := bne_iff_ne

section Parts
variable (top : BitVec 8) (cond group : BitVec 4) (b : BitVec 24)

/-- A field within bits [23:0] of a 32-bit value is that field of its bits [23:0]. -/
theorem append_body_field {lo len : Nat} (h : lo + len ≤ 24) :
    BitVec.extractLsb' (n := 32) lo len (top ++ b) = b.extractLsb' lo len :=
  BitVec.extractLsb'_append_eq_of_add_le h

theorem append_body_cond : BitVec.extractLsb' (n := 32) 28 4 (cond ++ group ++ b) = cond :=
  (BitVec.extractLsb'_append_eq_of_le (xhi := cond ++ group) (xlo := b) (by decide)).trans
    BitVec.extractLsb'_append_eq_left

theorem append_body_group : BitVec.extractLsb' (n := 32) 24 4 (cond ++ group ++ b) = group :=
  (BitVec.extractLsb'_append_eq_of_le (xhi := cond ++ group) (xlo := b) (by decide)).trans
    BitVec.extractLsb'_append_eq_right

/-- The A32 decoder on the format of `MRC` and `MCR` under a condition: its answer is that on bits [23:0]
(30_encoding.md rule R53). -/
theorem decodeA32_append {cond : BitVec 4} (hc : isCondition cond = true) :
    decodeA32 (cond ++ 0b1110#4 ++ b) = (decodeBody b).map fun x => a32Instr cond x.1 x.2 := by
  have hbody : BitVec.extractLsb' (n := 32) 0 24 (cond ++ 0b1110#4 ++ b) = b := BitVec.extractLsb'_append_eq_right
  rw [decodeA32, append_body_group, append_body_cond, hbody, if_pos rfl, if_pos hc]
  cases decodeBody b <;> rfl

/-- The T32 decoder on the format of `MRC` and `MCR`: its answer is that on bits [23:0] (30_encoding.md rule R54). -/
theorem decodeT32_append : decodeT32 (0b11101110#8 ++ b) = (decodeBody b).map fun x => t32Instr x.1 x.2 := by
  have htop : BitVec.extractLsb' (n := 32) 24 8 (0b11101110#8 ++ b) = 0b11101110#8 := BitVec.extractLsb'_append_eq_left
  have hbody : BitVec.extractLsb' (n := 32) 0 24 (0b11101110#8 ++ b) = b := BitVec.extractLsb'_append_eq_right
  rw [decodeT32, htop, hbody, if_pos rfl]
  cases decodeBody b <;> rfl

end Parts

/-- A 32-bit value is its two halfwords put together. -/
theorem word_join_halfwords (v : Word) : v.extractLsb' 16 16 ++ v.extractLsb' 0 16 = v :=
  (extract_append_extract v 0 16 16).trans BitVec.extractLsb'_eq_self

@[simp] theorem tableNumber_halfwords (v : Word) : tableNumber (halfwords v) = v := word_join_halfwords v

@[simp] theorem decode_halfwords (v : Word) : decode (halfwords v) = decodeT32 v :=
  congrArg decodeT32 (word_join_halfwords v)

theorem halfwords_append (hw1 hw2 : Halfword) : halfwords (hw1 ++ hw2) = .t32 hw1 hw2 :=
  congrArg₂ InstrWords.t32 BitVec.extractLsb'_append_eq_left BitVec.extractLsb'_append_eq_right

theorem halfwords_eq_t32_iff {v : Word} {hw1 hw2 : Halfword} : halfwords v = .t32 hw1 hw2 ↔ v = hw1 ++ hw2 :=
  ⟨fun h => (tableNumber_halfwords v).symm.trans (congrArg tableNumber h), fun h => h ▸ halfwords_append hw1 hw2⟩

/-! ### What the decoder accepts -/

/-- What the A32 decoder accepts is the word of the instruction it answers, under a condition (30_encoding.md rule
R53). -/
theorem decodeA32_eq_ok {w : Word} {i : Instr} (h : decodeA32 w = .ok i) :
    ∃ cond dir rt, isCondition cond = true ∧ w = a32Word cond dir rt ∧ i = a32Instr cond dir rt := by
  unfold decodeA32 at h
  split at h
  · rename_i hgroup
    split at h
    · rename_i hc
      split at h
      · rename_i dir rt hb
        injection h with h
        refine ⟨_, dir, rt, hc, ?_, h.symm⟩
        rw [a32Word, ← hgroup, ← decodeBody_eq_ok hb]
        exact word_join w
      · cases h
    · cases h
  · cases h

/-- What the T32 decoder accepts is the word of the instruction it answers (30_encoding.md rule R54). -/
theorem decodeT32_eq_ok {w : Word} {i : Instr} (h : decodeT32 w = .ok i) :
    ∃ dir rt, w = t32Word dir rt ∧ i = t32Instr dir rt := by
  unfold decodeT32 at h
  split at h
  · rename_i htop
    split at h
    · rename_i dir rt hb
      injection h with h
      refine ⟨dir, rt, ?_, h.symm⟩
      rw [t32Word, ← htop, ← decodeBody_eq_ok hb]
      exact word_join_eight w
    · cases h
  · cases h

/-! ### Decode and encode -/

theorem encode_a32Instr (cond : BitVec 4) (dir : Direction) (rt : BitVec 4) :
    encode (a32Instr cond dir rt) = .a32 (a32Word cond dir rt) := by cases dir <;> rfl

theorem wellFormed_a32Instr (cond : BitVec 4) (dir : Direction) (rt : BitVec 4) :
    wellFormed (a32Instr cond dir rt) = isCondition cond := by cases dir <;> rfl

theorem encode_t32Instr (dir : Direction) (rt : BitVec 4) :
    encode (t32Instr dir rt) = halfwords (t32Word dir rt) := by cases dir <;> rfl

theorem wellFormed_t32Instr (dir : Direction) (rt : BitVec 4) : wellFormed (t32Instr dir rt) = true := by
  cases dir <;> rfl

/-- Every instruction is an A32 or a T32 one of a direction and a register field: the shape its words are made in. -/
theorem instr_shapes (i : Instr) : (∃ cond dir rt, i = a32Instr cond dir rt) ∨ ∃ dir rt, i = t32Instr dir rt := by
  cases i with
  | mrcA32 cond rt => exact .inl ⟨cond, .read, rt, rfl⟩
  | mcrA32 cond rt => exact .inl ⟨cond, .write, rt, rfl⟩
  | mrcT32 rt => exact .inr ⟨.read, rt, rfl⟩
  | mcrT32 rt => exact .inr ⟨.write, rt, rfl⟩

/-- The words of a well-formed instruction decode to it. -/
theorem decode_encode {i : Instr} (h : wellFormed i = true) : decode (encode i) = .ok i := by
  rcases instr_shapes i with ⟨cond, dir, rt, rfl⟩ | ⟨dir, rt, rfl⟩
  · rw [wellFormed_a32Instr] at h
    rw [encode_a32Instr, decode, a32Word, decodeA32_append _ h, decodeBody_transferBody_ifsrPoint]
    rfl
  · rw [encode_t32Instr, decode_halfwords, t32Word, decodeT32_append, decodeBody_transferBody_ifsrPoint]
    rfl

/-- Words that decode are those of the instruction they decode to, which is well formed. -/
theorem encode_of_decode {w : InstrWords} {i : Instr} (h : decode w = .ok i) :
    wellFormed i = true ∧ encode i = w := by
  cases w with
  | a32 w =>
    obtain ⟨cond, dir, rt, hc, rfl, rfl⟩ := decodeA32_eq_ok h
    exact ⟨(wellFormed_a32Instr cond dir rt).trans hc, encode_a32Instr cond dir rt⟩
  | t32 hw1 hw2 =>
    obtain ⟨dir, rt, hw, rfl⟩ := decodeT32_eq_ok h
    exact ⟨wellFormed_t32Instr dir rt, (encode_t32Instr dir rt).trans (halfwords_eq_t32_iff.mpr hw.symm)⟩

theorem decode_eq_ok_iff {w : InstrWords} {i : Instr} :
    decode w = .ok i ↔ (wellFormed i = true ∧ encode i = w) :=
  ⟨encode_of_decode, fun ⟨hwf, hw⟩ => hw ▸ decode_encode hwf⟩

/-- Settles O1: by the decoder on the words of an instruction, and the encoder on what the decoder accepts. -/
theorem decodeAnswersExactlyTheEncodedInstruction : Obligations.DecodeAnswersExactlyTheEncodedInstruction :=
  fun _ _ => decode_eq_ok_iff

/-! ### The words by mask and match -/

/-- The words of a well-formed instruction fit its row of spec/opcode_table.json (30_encoding.md rules R53, R54). -/
theorem tableNumber_encode_and_tableMask {i : Instr} (h : wellFormed i = true) :
    tableNumber (encode i) &&& tableMask i = tableMatch i := by
  cases i with
  | mrcA32 cond rt => exact TableRow.mrcA32 cond rt h
  | mcrA32 cond rt => exact TableRow.mcrA32 cond rt h
  | mrcT32 rt => exact TableRow.mrcT32 rt h
  | mcrT32 rt => exact TableRow.mcrT32 rt h

/-- A 32-bit value is fixed by its bits under a mask and the bits the mask leaves open. -/
theorem word_ext_of_mask {m v w : Word} (hmask : v &&& m = w &&& m)
    (hopen : ∀ k < 32, m.getLsbD k = false → v.getLsbD k = w.getLsbD k) : v = w := by
  refine BitVec.eq_of_getLsbD_eq fun k hk => ?_
  cases hm : m.getLsbD k with
  | true => exact getLsbD_eq_of_and_eq hmask hm
  | false => exact hopen k hk hm

theorem getLsbD_eq_of_field_eq {v w : Word} {lo len k : Nat} (h : v.extractLsb' lo len = w.extractLsb' lo len)
    (hlo : lo ≤ k) (hhi : k < lo + len) : v.getLsbD k = w.getLsbD k := by
  have hk := congrArg (fun x => x.getLsbD (k - lo)) h
  simpa [show k - lo < len by omega, show lo + (k - lo) = k by omega] using hk

section Words
variable {w : Word} {cond rt : BitVec 4} {dir : Direction}

theorem a32Word_cond : (a32Word cond dir rt).extractLsb' 28 4 = cond := append_body_cond cond _ _

theorem a32Word_rt : (a32Word cond dir rt).extractLsb' 12 4 = rt :=
  (append_body_field (cond ++ 0b1110#4) _ (by decide)).trans (transferBody_rt dir ifsrPoint rt)

theorem t32Word_rt : (t32Word dir rt).extractLsb' 12 4 = rt :=
  (append_body_field 0b11101110#8 _ (by decide)).trans (transferBody_rt dir ifsrPoint rt)

theorem a32Word_and_mask (hc : isCondition cond = true) :
    a32Word cond dir rt &&& 0x0FFF0FFF#32 = tableMatch (a32Instr cond dir rt) := by
  cases dir with
  | read => exact tableNumber_encode_and_tableMask (i := .mrcA32 cond rt) hc
  | write => exact tableNumber_encode_and_tableMask (i := .mcrA32 cond rt) hc

theorem t32Word_and_mask : t32Word dir rt &&& 0xFFFF0FFF#32 = tableMatch (t32Instr dir rt) := by
  have h := tableNumber_encode_and_tableMask (wellFormed_t32Instr dir rt)
  rw [encode_t32Instr, tableNumber_halfwords] at h
  cases dir <;> exact h

/-- A word is that of an A32 access by the mask, the match and the two fields the mask leaves open (30_encoding.md rule
R53). -/
theorem a32Word_eq_iff (hc : isCondition cond = true) :
    a32Word cond dir rt = w ↔
      (w &&& 0x0FFF0FFF#32 = tableMatch (a32Instr cond dir rt) ∧ cond = w.extractLsb' 28 4 ∧
        rt = w.extractLsb' 12 4) := by
  constructor
  · rintro rfl
    exact ⟨a32Word_and_mask hc, a32Word_cond.symm, a32Word_rt.symm⟩
  · rintro ⟨hmask, hcond, hrt⟩
    have hopen : ∀ k < 32, (0x0FFF0FFF#32).getLsbD k = false → 28 ≤ k ∨ 12 ≤ k ∧ k < 16 := by decide
    refine word_ext_of_mask ((a32Word_and_mask hc).trans hmask.symm) fun k hk hm => ?_
    rcases hopen k hk hm with h28 | ⟨h12, h16⟩
    · exact getLsbD_eq_of_field_eq (a32Word_cond.trans hcond) h28 hk
    · exact getLsbD_eq_of_field_eq (a32Word_rt.trans hrt) h12 h16

/-- A word is that of a T32 access by the mask, the match and the field the mask leaves open (30_encoding.md rule
R54). -/
theorem t32Word_eq_iff :
    t32Word dir rt = w ↔
      (w &&& 0xFFFF0FFF#32 = tableMatch (t32Instr dir rt) ∧ rt = w.extractLsb' 12 4) := by
  constructor
  · rintro rfl
    exact ⟨t32Word_and_mask, t32Word_rt.symm⟩
  · rintro ⟨hmask, hrt⟩
    have hopen : ∀ k < 32, (0xFFFF0FFF#32).getLsbD k = false → 12 ≤ k ∧ k < 16 := by decide
    refine word_ext_of_mask (t32Word_and_mask.trans hmask.symm) fun k hk hm => ?_
    obtain ⟨h12, h16⟩ := hopen k hk hm
    exact getLsbD_eq_of_field_eq (t32Word_rt.trans hrt) h12 h16

theorem decode_a32_eq_ok_iff :
    decode (.a32 w) = .ok (a32Instr cond dir rt) ↔
      (w &&& 0x0FFF0FFF#32 = tableMatch (a32Instr cond dir rt) ∧ w.extractLsb' 28 4 ≠ 0b1111#4 ∧
        cond = w.extractLsb' 28 4 ∧ rt = w.extractLsb' 12 4) := by
  rw [decode_eq_ok_iff, wellFormed_a32Instr, encode_a32Instr, InstrWords.a32.injEq]
  constructor
  · rintro ⟨hc, hw⟩
    obtain ⟨hmask, hcond, hrt⟩ := (a32Word_eq_iff hc).mp hw
    exact ⟨hmask, hcond ▸ isCondition_iff.mp hc, hcond, hrt⟩
  · rintro ⟨hmask, hne, hcond, hrt⟩
    have hc : isCondition cond = true := isCondition_iff.mpr (hcond ▸ hne)
    exact ⟨hc, (a32Word_eq_iff hc).mpr ⟨hmask, hcond, hrt⟩⟩

theorem decode_t32_eq_ok_iff {hw1 hw2 : Halfword} :
    decode (.t32 hw1 hw2) = .ok (t32Instr dir rt) ↔ t32Word dir rt = hw1 ++ hw2 := by
  rw [decode_eq_ok_iff, encode_t32Instr, halfwords_eq_t32_iff]
  exact and_iff_right (wellFormed_t32Instr dir rt)

/-- Some register field makes two halfwords a T32 access exactly under the mask and match of its row (30_encoding.md
rule R54). -/
theorem exists_decode_t32_eq_ok_iff {hw1 hw2 : Halfword} :
    (∃ rt, decode (.t32 hw1 hw2) = .ok (t32Instr dir rt)) ↔
      (hw1 ++ hw2) &&& 0xFFFF0FFF#32 = tableMatch (t32Instr dir 0#4) := by
  have hmatch : ∀ rt, tableMatch (t32Instr dir rt) = tableMatch (t32Instr dir 0#4) := by
    cases dir <;> exact fun _ => rfl
  simp only [decode_t32_eq_ok_iff, t32Word_eq_iff, hmatch]
  exact ⟨fun ⟨_, h, _⟩ => h, fun h => ⟨_, h, rfl⟩⟩

end Words

/-- Settles O2: by the mask and match of each A32 row, and the words an instruction of the other set has. -/
theorem a32WordIsAnAccessorByMaskAndMatch : Obligations.A32WordIsAnAccessorByMaskAndMatch := by
  refine ⟨fun w cond rt => decode_a32_eq_ok_iff (dir := .read), fun w cond rt => decode_a32_eq_ok_iff (dir := .write),
    fun w rt => ⟨fun h => ?_, fun h => ?_⟩, by decide, by decide⟩
  · cases (encode_of_decode h).2
  · cases (encode_of_decode h).2

/-- The first halfword of a T32 access, which alone tells the direction (30_encoding.md rule R54). -/
def firstHalfword : Direction → Halfword
  | .read => 0xEE15#16
  | .write => 0xEE05#16

/-- The halfwords of a T32 access, as 30_encoding.md rule R54 writes them. -/
theorem halfwords_t32Word (dir : Direction) (rt : BitVec 4) :
    halfwords (t32Word dir rt) = .t32 (firstHalfword dir) (0x0F30#16 ||| (rt.setWidth 16 <<< 12)) := by
  cases dir <;> revert rt <;> decide

theorem decode_t32_eq_ok_iff_halfwords {hw1 hw2 : Halfword} {dir : Direction} {rt : BitVec 4} :
    decode (.t32 hw1 hw2) = .ok (t32Instr dir rt) ↔
      (hw1 = firstHalfword dir ∧ hw2 = 0x0F30#16 ||| (rt.setWidth 16 <<< 12)) := by
  rw [decode_t32_eq_ok_iff, ← halfwords_eq_t32_iff, halfwords_t32Word, InstrWords.t32.injEq, eq_comm,
    @eq_comm _ _ hw2]

/-- Settles O3: by the halfwords of a T32 access, and by the mask and match of its row. -/
theorem t32HalfwordsAreAnAccessorByTheirValues : Obligations.T32HalfwordsAreAnAccessorByTheirValues := by
  refine ⟨fun hw1 hw2 rt => ?_, fun hw1 hw2 rt => ?_, fun hw1 hw2 => ⟨?_, ?_⟩,
    fun hw1 hw2 cond rt => ⟨fun h => ?_, fun h => ?_⟩⟩
  · exact decode_t32_eq_ok_iff_halfwords (dir := .read)
  · exact decode_t32_eq_ok_iff_halfwords (dir := .write)
  · exact exists_decode_t32_eq_ok_iff (dir := .read)
  · exact exists_decode_t32_eq_ok_iff (dir := .write)
  · cases (encode_of_decode h).2
  · cases (encode_of_decode h).2

/-! ### The five values that select IFSR -/

/-- The words of every instruction end in bits [23:0] of an access to IFSR in its direction (30_encoding.md rules R52 to
R54). -/
theorem exists_tableNumber_encode (i : Instr) :
    ∃ top : BitVec 8, tableNumber (encode i) = top ++ transferBody (direction i) ifsrPoint (rtField i) := by
  cases i with
  | mrcA32 cond rt => exact ⟨cond ++ 0b1110#4, rfl⟩
  | mcrA32 cond rt => exact ⟨cond ++ 0b1110#4, rfl⟩
  | mrcT32 rt => exact ⟨0b11101110#8, tableNumber_halfwords _⟩
  | mcrT32 rt => exact ⟨0b11101110#8, tableNumber_halfwords _⟩

/-- Settles O4: accepted words are those of an instruction, and bits [23:0] of these name IFSR's point. -/
theorem acceptedWordsCarryTheFiveValuesOfIFSR : Obligations.AcceptedWordsCarryTheFiveValuesOfIFSR := by
  intro w i h
  obtain ⟨top, htop⟩ := exists_tableNumber_encode i
  rw [(encode_of_decode h).2] at htop
  have hfield : ∀ {lo len : Nat}, lo + len ≤ 24 → (tableNumber w).extractLsb' lo len =
      (transferBody (direction i) ifsrPoint (rtField i)).extractLsb' lo len :=
    fun hle => htop ▸ append_body_field top _ hle
  have hpoint := bodyPoint_transferBody (direction i) ifsrPoint (rtField i)
  simp only [bodyPoint, ifsrPoint, EncodingPoint.mk.injEq] at hpoint
  obtain ⟨hcoproc, hopc1, hcrn, hcrm, hopc2⟩ := hpoint
  refine ⟨(hfield (by decide)).trans hcoproc, (hfield (by decide)).trans hopc1, (hfield (by decide)).trans hcrn,
    (hfield (by decide)).trans hcrm, (hfield (by decide)).trans hopc2, ?_,
    (hfield (by decide)).trans (transferBody_rt _ _ _)⟩
  rw [hfield (by decide), transferBody_directionBit]
  exact directionBit_eq_one_iff

/-! ### The words of other registers -/

/-- Settles O5: both formats answer as their bits [23:0] do, and the step refuses what does not decode. -/
theorem otherEncodingPointsAreNotIFSR : Obligations.OtherEncodingPointsAreNotIFSR := by
  intro cond dir p rt hc hp
  have ha32 : decode (.a32 (cond ++ 0b1110#4 ++ transferBody dir p rt)) = .error .otherRegister := by
    rw [decode, decodeA32_append _ (isCondition_iff.mpr hc), decodeBody_transferBody_other dir rt hp]
    rfl
  have ht32 : decode (halfwords (0b11101110#8 ++ transferBody dir p rt)) = .error .otherRegister := by
    rw [decode_halfwords, decodeT32_append, decodeBody_transferBody_other dir rt hp]
    rfl
  refine ⟨ha32, ht32, fun s rest hi => ?_⟩
  rcases hi with hi | hi
  · exact step_notIFSR hi ha32
  · exact step_notIFSR hi ht32

/-! ### A failed condition -/

/-- The same state with the condition of its accesses passed. -/
def withCondPassed (s : State) : State := { s with ctx := { s.ctx with condPassed := true } }

/-- The condition is no input of what the pseudocode decides (30_encoding.md rule R57). -/
@[simp] theorem accessDecision_withCondPassed (s : State) (dir : Direction) :
    accessDecision (withCondPassed s).params (withCondPassed s).ctx dir = accessDecision s.params s.ctx dir := rfl

/-- An access under a failed condition beside the same access with the condition passed: both refused alike, or the
exception turned into a refusal, or both `Ok`, the former without effect (30_encoding.md rule R57). -/
theorem exec_failed_condition_cases (i : Instr) {s : State} (hc : s.ctx.condPassed = false) :
    (∃ r, exec i (withCondPassed s) = .refused r ∧ exec i s = .refused r) ∨
      (∃ e, exec i (withCondPassed s) = .next (takeException e (withCondPassed s)) ∧
        exec i s = .refused .conditionFailedOnNonOkAccess) ∨
      ∃ t, exec i (withCondPassed s) = .next (completeAccess t) ∧ exec i s = .next (completeAccess s) := by
  by_cases h15 : rtField i = 15#4
  · exact .inl ⟨_, exec_of_rtField_fifteen h15, exec_of_rtField_fifteen h15⟩
  · cases hd : accessDecision s.params s.ctx (direction i) with
    | exception e =>
      refine .inr (.inl ⟨e, exec_of_exception h15 hd, ?_⟩)
      rw [exec_of_exception h15 hd, exceptionUnderCondition, hc]
      rfl
    | access n =>
      cases he : instanceExists s.params n with
      | false => exact .inl ⟨_, exec_of_absent h15 hd he, exec_of_absent h15 hd he⟩
      | true =>
        have hlt : (rtField i).toNat < 15 := by bv_omega
        refine .inr (.inr ⟨_, exec_of_present hlt hd he, ?_⟩)
        rw [exec_of_present hlt hd he, okUnderCondition, hc]
        rfl

/-- Settles O18: by the three answers of the same access with the condition passed. -/
theorem aFailedConditionHasNoEffectOnlyWhereTheAccessIsOk :
    Obligations.AFailedConditionHasNoEffectOnlyWhereTheAccessIsOk := by
  intro i s hc
  rcases exec_failed_condition_cases i hc with
    ⟨_, hpassed, hfailed⟩ | ⟨_, hpassed, hfailed⟩ | ⟨_, hpassed, hfailed⟩
  · refine ⟨fun t h => ?_, fun t e h => ?_, fun r h => ?_⟩ <;> cases hpassed.symm.trans h
    exact hfailed
  · refine ⟨fun t h hok => ?_, fun t e h hex => hfailed, fun r h => ?_⟩ <;> cases hpassed.symm.trans h
    cases hok
  · refine ⟨fun t h hok => hfailed, fun t e h hex => ?_, fun r h => ?_⟩ <;> cases hpassed.symm.trans h
    cases hex

/-! ### The assembler -/

/-- A line that omits `<opc2>` names another register (30_encoding.md rule R52). -/
theorem accessorPoint_ne_ifsrPoint {a : Accessor} (h : a.opc2 = none) : accessorPoint a ≠ ifsrPoint := by
  intro hp
  have hopc2 := congrArg EncodingPoint.opc2 hp
  rw [accessorPoint, h] at hopc2
  cases hopc2

theorem assembleA32_of_ifsrPoint {cond : BitVec 4} {a : Accessor} (hp : accessorPoint a = ifsrPoint)
    (hc : isCondition cond = true) : assembleA32 cond a = .ok (a32Instr cond a.dir a.rt) := by
  rw [assembleA32, if_pos hp, if_pos hc]

theorem assembleT32_of_ifsrPoint {a : Accessor} (hp : accessorPoint a = ifsrPoint) :
    assembleT32 a = .ok (t32Instr a.dir a.rt) := if_pos hp

/-- Settles O6: by the point that the line names. -/
theorem assembledAccessorIsTheInstructionItNames : Obligations.AssembledAccessorIsTheInstructionItNames := by
  intro cond rt hne
  have hc : isCondition cond = true := isCondition_iff.mpr hne
  refine ⟨assembleA32_of_ifsrPoint rfl hc, assembleA32_of_ifsrPoint rfl hc, assembleT32_of_ifsrPoint rfl,
    assembleT32_of_ifsrPoint rfl, fun a ha => ⟨?_, ?_⟩⟩
  · exact if_neg (accessorPoint_ne_ifsrPoint ha)
  · exact if_neg (accessorPoint_ne_ifsrPoint ha)

/-! ### The vectors and register 15 -/

/-- Settles O7: the decoder is evaluated on each of the listed words. -/
theorem wordsOfTheVectorsDecodeAsListed : Obligations.WordsOfTheVectorsDecodeAsListed := by
  unfold Obligations.WordsOfTheVectorsDecodeAsListed
  decide

/-- Settles O15: by the check of `Rt`, and by the reasons for which an access is refused. -/
theorem registerFifteenAloneIsRefused : Obligations.RegisterFifteenAloneIsRefused := by
  refine fun i s => ⟨exec_of_rtField_fifteen, fun h15 hx => ?_⟩
  rcases exec_refused hx with ⟨_, h⟩ | ⟨hwhy, _⟩ | ⟨hwhy, _⟩
  · exact h15 h
  · cases hwhy
  · cases hwhy

end Sys2Proof.Proofs
end

section
/-! PROOFS. 40_sysreg_access.md: the decision with its trap arms grouped, the complete operations, the outcomes of an
access, and what changes a general register. -/

namespace Sys2Proof.Proofs

open Sys2Proof.Machine Sys2Proof.Safety Sys2Proof.Laws

/-! ### Completion and results -/

/-- The effect of a granted write, completed, is the state that 40_sysreg_access.md rule R61 gives. -/
theorem completeAccess_accessEffect_write (t : Fin 15) (n : InstanceName) (s : State) :
    completeAccess (accessEffect .write t n s) = afterWrite t n s := rfl

/-- Settles O11: either instruction is a granted access, whose effect is one register write. -/
theorem readMovesTheReachedInstanceIntoTheRegister : Obligations.ReadMovesTheReachedInstanceIntoTheRegister := by
  intro cond t s n hr he hc
  exact ⟨exec_of_reaches (i := .mrcA32 cond _) rfl hr he hc, exec_of_reaches (i := .mrcT32 _) rfl hr he hc⟩

/-- Settles O12: either instruction is a granted access, whose effect is one software write. -/
theorem writeStoresTheMaskedRegisterInTheReachedInstance :
    Obligations.WriteStoresTheMaskedRegisterInTheReachedInstance := by
  intro cond t s n hr he hc
  rw [← completeAccess_accessEffect_write]
  exact ⟨exec_of_reaches (i := .mcrA32 cond _) rfl hr he hc, exec_of_reaches (i := .mcrT32 _) rfl hr he hc⟩

/-! ### The grouped decision -/

/-- Two tests under one guard with one answer are one test. -/
theorem ite_guard_or {α : Type} (guard a b : Bool) (x y : α) :
    (if guard && (a || b) then x else y) = if guard && a then x else if guard && b then x else y := by
  cases guard <;> cases a <;> simp

/-- The four trap arms of EL1 are two groups: EL2 is using one Execution state, which rules the arms of the other out
(40_sysreg_access.md rule R64). -/
theorem decisionAtEL1_eq_grouped (p : Params) (c : Context) (dir : Direction) :
    decisionAtEL1 p c dir =
      if trap64 p c dir then .exception (.trapToEL2AArch64 trapArgument)
      else if trap32 p c dir then .exception (.hypTrap trapArgument)
      else decisionAtEL2 p c := by
  unfold decisionAtEL1 trap64 trap32 decisionAtEL2
  cases c.el2UsingAArch32 <;>
    simp only [Bool.not_true, Bool.and_false, Bool.false_and, Bool.false_eq_true, if_false, ite_guard_or]

/-- The pseudocode of an access and its grouped form decide alike (40_sysreg_access.md rule R64). -/
theorem accessDecision_eq_groupedDecision (p : Params) (c : Context) (dir : Direction) :
    accessDecision p c dir = groupedDecision p c dir := by
  unfold accessDecision groupedDecision
  rw [decisionAtEL1_eq_grouped]
  cases c.el <;> rfl

/-! ### The complete operations -/

/-- The complete operation of either direction, in the order of checks of 40_sysreg_access.md rule R64. -/
def accessOperation (dir : Direction) (t : Fin 15) (s : State) : Host.Outcome State Fault Refusal :=
  match groupedDecision s.params s.ctx dir with
  | .access n =>
    if instanceExists s.params n = false then .refused .noSuchInstance
    else if s.ctx.condPassed = false then .next (completeAccess s)
    else .next (completeAccess (accessEffect dir t n s))
  | .exception e =>
    if s.ctx.condPassed = false then .refused .conditionFailedOnNonOkAccess else .next (takeException e s)

theorem accessOperation_read (t : Fin 15) (s : State) : accessOperation .read t s = readOperation t s := rfl

theorem accessOperation_write (t : Fin 15) (s : State) : accessOperation .write t s = writeOperation t s := rfl

/-- The number of a register, as an `Rt` field, names it (30_encoding.md rule R55). -/
theorem toNat_ofNat_register (t : Fin 15) : (BitVec.ofNat 4 t).toNat = t.val := by
  rw [BitVec.toNat_ofNat]
  exact Nat.mod_eq_of_lt (by omega)

theorem exec_eq_accessOperation {i : Instr} {t : Fin 15} (hrt : rtField i = BitVec.ofNat 4 t) (s : State) :
    exec i s = accessOperation (direction i) t s := by
  have hval : (rtField i).toNat = t.val := hrt ▸ toNat_ofNat_register t
  have hlt : (rtField i).toNat < 15 := hval ▸ t.isLt
  have h15 : rtField i ≠ 15#4 := fun h => by rw [h] at hlt; exact absurd hlt (by decide)
  unfold accessOperation
  rw [← accessDecision_eq_groupedDecision]
  cases hd : accessDecision s.params s.ctx (direction i) with
  | exception e =>
    rw [exec_of_exception h15 hd, exceptionUnderCondition]
    cases s.ctx.condPassed <;> rfl
  | access n =>
    cases he : instanceExists s.params n with
    | false => exact (exec_of_absent h15 hd he).trans (if_pos he).symm
    | true =>
      have hreg : (⟨(rtField i).toNat, hlt⟩ : Fin 15) = t := Fin.ext hval
      rw [exec_of_present hlt hd he, okUnderCondition, hreg]
      simp only [he]
      cases s.ctx.condPassed <;> rfl

/-- Settles O14: by the grouping of the trap arms, and by the operation that each instruction is. -/
theorem accessesAreTheGroupedDecisionOperations : Obligations.AccessesAreTheGroupedDecisionOperations := by
  refine ⟨accessDecision_eq_groupedDecision, fun cond t s => ?_, fun i s h15 => exec_of_rtField_fifteen h15⟩
  rw [← accessOperation_read, ← accessOperation_write]
  exact ⟨exec_eq_accessOperation (i := .mrcA32 cond _) rfl s, exec_eq_accessOperation (i := .mrcT32 _) rfl s,
    exec_eq_accessOperation (i := .mcrA32 cond _) rfl s, exec_eq_accessOperation (i := .mcrT32 _) rfl s⟩

/-! ### The outcomes of an access -/

/-- The exceptions that an access can end in, with the argument of the traps (40_sysreg_access.md rule R62). -/
theorem exception_of_accessDecision {p : Params} {c : Context} {dir : Direction} {e : AccessException}
    (hd : accessDecision p c dir = .exception e) :
    e = .undefined ∨ e = .trapToEL2AArch64 0x03#8 ∨ e = .hypTrap 0x03#8 := by
  cases e with
  | undefined => exact .inl rfl
  | trapToEL2AArch64 ec => exact .inr (.inl (congrArg _ (accessDecision_eq_trap64_iff.mp hd).1))
  | hypTrap ec => exact .inr (.inr (congrArg _ (accessDecision_eq_hypTrap_iff.mp hd).1))

/-- Settles O16: by the answer of the access; a next state is that of a listed exception or of `Ok`, and a refusal has
one of three reasons. -/
theorem anAccessEndsInOneOfTheListedOutcomes : Obligations.AnAccessEndsInOneOfTheListedOutcomes := by
  intro i s
  cases hx : exec i s with
  | next t =>
    rcases exec_next hx with ⟨e, hd, rfl⟩ | ⟨n, k, _, _, rfl⟩
    · rcases exception_of_accessDecision hd with rfl | rfl | rfl
      · exact .inr (.inl rfl)
      · exact .inr (.inr (.inl rfl))
      · exact .inr (.inr (.inr (.inl rfl)))
    · exact .inl ⟨_, rfl, rfl⟩
  | fault f => cases f
  | refused why =>
    rcases exec_refused hx with ⟨rfl, _⟩ | ⟨rfl, _⟩ | ⟨rfl, _⟩
    · exact .inr (.inr (.inr (.inr (.inl rfl))))
    · exact .inr (.inr (.inr (.inr (.inr (.inl rfl)))))
    · exact .inr (.inr (.inr (.inr (.inr (.inr rfl)))))

/-- Settles O17: an access that answers a next state and is not `Ok` took an exception, which sets the outcome alone. -/
theorem anAccessThatIsNotOkChangesNothing : Obligations.AnAccessThatIsNotOkChangesNothing := by
  intro i s t h hnotOk
  rcases exec_next h with ⟨e, _, rfl⟩ | ⟨n, k, _, _, rfl⟩
  · rfl
  · exact absurd rfl hnotOk

/-! ### What changes a general register -/

/-- A register write changes the register it names, to the value written, and no other. -/
theorem eq_of_regWrite_changes {j k : Fin 15} {v : Word} {s : State}
    (hne : regRead k (regWrite j v s) ≠ regRead k s) : k = j ∧ regRead k (regWrite j v s) = v := by
  have hkj : k = j := by
    by_contra hkj
    exact hne (regRead_regWrite_other v s hkj)
  subst hkj
  exact ⟨rfl, regRead_regWrite_same k v s⟩

/-- An access that changes a register is a read that names it and reaches the cell whose value it takes
(40_sysreg_access.md rules R60, R61, R63). -/
theorem exec_changes_register {i : Instr} {s t : State} {k : Fin 15} (h : exec i s = .next t)
    (hne : regRead k t ≠ regRead k s) :
    direction i = .read ∧ (rtField i).toNat = k.val ∧
      ∃ n, Reaches s.params s.ctx .read n ∧ regRead k t = cellRead n s := by
  rcases exec_next_effect h with ⟨e, rfl⟩ | rfl | ⟨n, j, hj, hr, _, rfl⟩
  · exact absurd rfl hne
  · exact absurd rfl hne
  · cases hdir : direction i with
    | read =>
      rw [hdir] at hne hr
      obtain ⟨rfl, hvalue⟩ := eq_of_regWrite_changes (s := s) hne
      exact ⟨rfl, hj.symm, n, hr, hvalue⟩
    | write => rw [hdir] at hne; exact absurd rfl hne

@[simp] theorem resetCell_regs (n : InstanceName) (s : State) : (resetCell n s).regs = s.regs := by
  rcases resetCell_cases n s with ⟨_, h⟩ | ⟨_, h⟩
  · rw [h]
  · rw [h]; rfl

/-- A reset leaves the general registers as they were (70_reset_and_hazards.md rule R90). -/
@[simp] theorem warmReset_regs (s : State) : (warmReset s).regs = s.regs := by simp [warmReset]

/-- An operation that changes a register is a read of IFSR or a value put there by the PE's other instructions. -/
theorem perform_changes_register {r : Request} {s t : State} {k : Fin 15} (h : perform r s = .next t)
    (hne : regRead k t ≠ regRead k s) :
    (∃ w i n, r = .instruction w ∧ decode w = .ok i ∧ direction i = .read ∧ (rtField i).toNat = k.val ∧
      Reaches s.params s.ctx .read n ∧ regRead k t = cellRead n s) ∨
      ∃ v, r = .register k v ∧ regRead k t = v := by
  cases r with
  | instruction w =>
    simp only [perform] at h
    split at h
    · rename_i i hdec
      obtain ⟨hread, hrt, n, hr, hvalue⟩ := exec_changes_register h hne
      exact .inl ⟨w, i, n, rfl, hdec, hread, hrt, hr, hvalue⟩
    · cases h
  | register j v =>
    injection h with h
    subst h
    obtain ⟨rfl, hvalue⟩ := eq_of_regWrite_changes hne
    exact .inr ⟨v, rfl, hvalue⟩
  | recordFault rep =>
    obtain ⟨_, _, _, _, _, rfl, _⟩ := recordInstructionFault_next h
    exact absurd rfl hne
  | reset kind =>
    injection h with h
    subst h
    exact absurd (by simp [regRead]) hne
  | context c => injection h with h; subst h; exact absurd rfl hne
  | contextSync => injection h with h; subst h; exact absurd rfl hne

/-- Settles O56: by the operation that the step performs, on the state without it. -/
theorem onlyAReadOrTheOtherInstructionsChangeARegister :
    Obligations.OnlyAReadOrTheOtherInstructionsChangeARegister := by
  intro s t k h hne
  rcases step_next h with ⟨_, rfl⟩ | ⟨r, rest, hi, hp⟩
  · exact absurd rfl hne
  · refine ⟨rest, ?_⟩
    rcases perform_changes_register (s := { s with inbox := rest }) hp hne with
      ⟨w, i, n, rfl, hread⟩ | ⟨v, rfl, hvalue⟩
    · exact .inl ⟨w, i, n, hi, hread⟩
    · exact .inr ⟨v, hi, hvalue⟩

end Sys2Proof.Proofs
end

section
/-! PROOFS. 60_exceptions.md: the exceptions an access is answered with, what each Exception level and each EL2 control
does, what a recording leaves in its target, and what changes a cell. -/

namespace Sys2Proof.Proofs

open Sys2Proof.Machine Sys2Proof.Safety Sys2Proof.Laws

/-! ### What changes a cell -/

/-- An access that changes a cell is a write, its condition passed, that reaches the cell (20_memory.md rule R42,
40_sysreg_access.md rule R61). -/
theorem exec_changes_cell {i : Instr} {s t : State} {n : InstanceName} (h : exec i s = .next t)
    (hne : cellRead n t ≠ cellRead n s) :
    direction i = .write ∧ Reaches s.params s.ctx .write n ∧ s.ctx.condPassed = true := by
  cases hdir : direction i with
  | read =>
    obtain ⟨hcells, _⟩ := aReadChangesOnlyItsRegister i s t hdir h
    exact absurd (congrArg (bankGet · n) hcells) hne
  | write =>
    obtain ⟨_, _, _, _, _, hframe⟩ := aWriteChangesOnlyTheReachedInstance i s t hdir h
    refine ⟨rfl, ?_⟩
    by_contra hunreached
    exact hne (hframe n hunreached).1

/-- A recording writes no instance but its target (60_exceptions.md rule R76). -/
theorem cellRead_of_recording_elsewhere {r : FaultReport} {s t : State} {n : InstanceName}
    (h : recordInstructionFault r s = .next t) (hn : n ≠ r.target) : cellRead n t = cellRead n s := by
  obtain ⟨_, _, _, w, k, rfl, _⟩ := recordInstructionFault_next h
  exact cellRead_cellWrite_other w s hn

theorem cellRead_resetCell_of_absent {n m : InstanceName} {s : State} (hn : instanceExists s.params n = false) :
    cellRead n (resetCell m s) = cellRead n s := by
  rcases resetCell_cases m s with ⟨_, h⟩ | ⟨hm, h⟩
  · rw [h]
  · have hnm : n ≠ m := by rintro rfl; cases hn.symm.trans hm
    rw [h]
    exact cellRead_cellWrite_other _ s hnm

/-- A reset leaves what stands under the name of an absent instance (70_reset_and_hazards.md rule R90). -/
theorem cellRead_warmReset_of_absent {n : InstanceName} {s : State} (hn : instanceExists s.params n = false) :
    cellRead n (warmReset s) = cellRead n s := by
  simp [warmReset, cellRead_resetCell_of_absent, hn]

/-- An operation that changes a cell is a write that reaches it, a recording into it, or a reset of an instance that
exists (60_exceptions.md rule R86). -/
theorem perform_changes_cell {r : Request} {s t : State} {n : InstanceName} (h : perform r s = .next t)
    (hne : cellRead n t ≠ cellRead n s) :
    (∃ w i, r = .instruction w ∧ decode w = .ok i ∧ direction i = .write ∧ Reaches s.params s.ctx .write n ∧
      s.ctx.condPassed = true) ∨
      (∃ rep, r = .recordFault rep ∧ rep.target = n) ∨
      ∃ kind, r = .reset kind ∧ instanceExists s.params n = true := by
  cases r with
  | instruction w =>
    simp only [perform] at h
    split at h
    · rename_i i hdec
      exact .inl ⟨w, i, rfl, hdec, exec_changes_cell h hne⟩
    · cases h
  | recordFault rep =>
    refine .inr (.inl ⟨rep, rfl, ?_⟩)
    by_contra htarget
    exact hne (cellRead_of_recording_elsewhere h (Ne.symm htarget))
  | reset kind =>
    injection h with h
    rw [performReset_eq] at h
    subst h
    refine .inr (.inr ⟨kind, rfl, ?_⟩)
    by_contra habsent
    exact hne (cellRead_warmReset_of_absent (Bool.eq_false_iff.mpr habsent))
  | context c => injection h with h; subst h; exact absurd rfl hne
  | register k v => injection h with h; subst h; exact absurd rfl hne
  | contextSync => injection h with h; subst h; exact absurd rfl hne

/-- Settles O55: by the operation that the step performs, on the state without it. -/
theorem onlyAWriteARecordingOrAResetChangesACell : Obligations.OnlyAWriteARecordingOrAResetChangesACell := by
  intro s t n h hne
  rcases step_next h with ⟨_, rfl⟩ | ⟨r, rest, hi, hp⟩
  · exact absurd rfl hne
  · refine ⟨rest, ?_⟩
    rcases perform_changes_cell (s := { s with inbox := rest }) hp hne with
      ⟨w, i, rfl, hwrite⟩ | ⟨rep, rfl, htarget⟩ | ⟨kind, rfl, he⟩
    · exact .inl ⟨w, i, hi, hwrite⟩
    · exact .inr (.inl ⟨rep, hi, htarget⟩)
    · exact .inr (.inr ⟨kind, hi, he⟩)

/-! ### The exceptions of an access -/

section Exceptions
variable {i : Instr} {s : State} {e : AccessException}

/-- An access whose outcome is an exception was decided so (40_sysreg_access.md rule R62). -/
theorem accessDecision_of_exec_exception {t : State} (h : exec i s = .next t)
    (ho : t.outcome = some (.exception e)) : accessDecision s.params s.ctx (direction i) = .exception e := by
  rcases exec_next h with ⟨e', hd, rfl⟩ | ⟨n, k, _, _, rfl⟩
  · cases ho; exact hd
  · cases ho

/-- An access decided so ends in the exception where the two checks of 30_encoding.md rules R55 and R57 let it. -/
theorem exec_of_exception_passed (h15 : rtField i ≠ 15#4) (hc : s.ctx.condPassed = true)
    (hd : accessDecision s.params s.ctx (direction i) = .exception e) : exec i s = .next (takeException e s) := by
  rw [exec_of_exception h15 hd, exceptionUnderCondition, if_pos hc]

end Exceptions

/-- Settles O19: around the two checks, by the decision of `Undefined`. -/
theorem undefinedExactlyWithoutTheFeatureOrAtEL0 : Obligations.UndefinedExactlyWithoutTheFeatureOrAtEL0 := by
  refine fun i s => ⟨fun hundef => ?_, fun t h ho => ?_⟩
  · split
    · exact exec_of_rtField_fifteen ‹_›
    · exact exec_of_exception ‹_› (accessDecision_eq_undefined_iff.mpr hundef)
  · exact accessDecision_eq_undefined_iff.mp (accessDecision_of_exec_exception h ho)

/-- Settles O20: by the decision of the trap to an EL2 using AArch32. -/
theorem hypTrapExactlyUnderTheAArch32Controls : Obligations.HypTrapExactlyUnderTheAArch32Controls := by
  refine fun i s h15 hc => ⟨fun hf hel htrap => ?_, fun t ec h ho => ?_⟩
  · exact exec_of_exception_passed h15 hc (accessDecision_eq_hypTrap_iff.mpr ⟨rfl, hf, hel, htrap⟩)
  · exact accessDecision_eq_hypTrap_iff.mp (accessDecision_of_exec_exception h ho)

/-- Settles O21: by the decision of the trap to an EL2 using AArch64. -/
theorem trapToAArch64ExactlyUnderTheAArch64Controls : Obligations.TrapToAArch64ExactlyUnderTheAArch64Controls := by
  refine fun i s h15 hc => ⟨fun hf hel htrap => ?_, fun t ec h ho => ?_⟩
  · exact exec_of_exception_passed h15 hc (accessDecision_eq_trap64_iff.mpr ⟨rfl, hf, hel, htrap⟩)
  · exact accessDecision_eq_trap64_iff.mp (accessDecision_of_exec_exception h ho)

/-! ### The order of the checks -/

section Decision
variable {p : Params} {c : Context} {dir : Direction}

/-- `HSTR_EL2.T5`, or the control of the direction, traps an access to an EL2 using AArch64 (60_exceptions.md rule
R81). -/
theorem trappedToAArch64_iff :
    TrappedToAArch64 p c dir ↔ c.el2Enabled = true ∧ p.featAA64EL2 = true ∧ c.el2UsingAArch32 = false ∧
      (c.hstrEL2T5 = 1#1 ∨ vmControl64 c dir = 1#1) := by
  cases dir <;> rfl

/-- `HSTR.T5`, or the control of the direction, traps an access to an EL2 using AArch32 (60_exceptions.md rule
R80). -/
theorem trappedToHyp_iff :
    TrappedToHyp p c dir ↔ c.el2Enabled = true ∧ p.featAA32EL2 = true ∧ c.el2UsingAArch32 = true ∧
      (c.hstrT5 = 1#1 ∨ vmControl32 c dir = 1#1) := by
  cases dir <;> rfl

/-- EL2 is using one Execution state, so an access is trapped to one of the two (60_exceptions.md rule R82). -/
theorem not_trapped_to_both : ¬(TrappedToAArch64 p c dir ∧ TrappedToHyp p c dir) := by
  rw [trappedToAArch64_iff, trappedToHyp_iff]
  rintro ⟨⟨_, _, h64, _⟩, _, _, h32, _⟩
  cases h64.symm.trans h32

/-- Where no check of 60_exceptions.md rule R82 succeeds the access itself is decided. -/
theorem exists_accessDecision_eq_access (hf : p.featAA32EL1 = true) (hel0 : c.el ≠ .el0)
    (h64 : ¬(c.el = .el1 ∧ TrappedToAArch64 p c dir)) (h32 : ¬(c.el = .el1 ∧ TrappedToHyp p c dir)) :
    ∃ n, accessDecision p c dir = .access n := by
  cases hd : accessDecision p c dir with
  | access n => exact ⟨n, rfl⟩
  | exception e =>
    cases e with
    | undefined =>
      rcases accessDecision_eq_undefined_iff.mp hd with hnone | hel
      · cases hf.symm.trans hnone
      · exact absurd hel hel0
    | trapToEL2AArch64 ec =>
      obtain ⟨_, _, htrap⟩ := accessDecision_eq_trap64_iff.mp hd
      exact absurd htrap h64
    | hypTrap ec =>
      obtain ⟨_, _, htrap⟩ := accessDecision_eq_hypTrap_iff.mp hd
      exact absurd htrap h32

end Decision

/-- Settles O22: by the decision of each exception, and by what is left where none is decided. -/
theorem checksAreMadeInTheOrderOfTheRule : Obligations.ChecksAreMadeInTheOrderOfTheRule := by
  refine fun p c dir => ⟨fun hf => ?_, fun _ hel => ?_, fun hf hel htrap => ?_, fun hf hel htrap => ?_,
    not_trapped_to_both, exists_accessDecision_eq_access⟩
  · exact accessDecision_eq_undefined_iff.mpr (.inl hf)
  · exact accessDecision_eq_undefined_iff.mpr (.inr hel)
  · exact accessDecision_eq_trap64_iff.mpr ⟨rfl, hf, hel, htrap⟩
  · exact accessDecision_eq_hypTrap_iff.mpr ⟨rfl, hf, hel, htrap⟩

/-! ### What each Exception level reaches -/

section Levels
variable {p : Params} {c : Context} {dir : Direction} {n : InstanceName}

/-- The EL1 row of the table of 60_exceptions.md rule R83. -/
theorem reaches_iff_at_el1 (hf : p.featAA32EL1 = true) (hel : c.el = .el1) :
    Reaches p c dir n ↔ ¬TrappedToAArch64 p c dir ∧ ¬TrappedToHyp p c dir ∧ BelowEL3Reaches p c n := by
  simp [Reaches, hf, hel]

/-- The EL2 row of the table of 60_exceptions.md rule R83. -/
theorem reaches_iff_at_el2 (hf : p.featAA32EL1 = true) (hel : c.el = .el2) :
    Reaches p c dir n ↔ BelowEL3Reaches p c n := by
  simp [Reaches, hf, hel]

/-- The EL3 rows of the table of 60_exceptions.md rule R83: with `SCR.NS` 0 an access reaches `IFSR_S`. -/
theorem accessDecision_of_scrNS_zero (hf : p.featAA32EL1 = true) (hel : c.el = .el3) (hns : c.scrNS = 0#1) :
    accessDecision p c dir = .access .ifsrS :=
  accessDecision_eq_access_iff.mpr ⟨hf, .inr (.inr ⟨hel, .inl ⟨hns, rfl⟩⟩)⟩

/-- The EL3 rows of the table of 60_exceptions.md rule R83: with `SCR.NS` 1 an access reaches `IFSR_NS`. -/
theorem accessDecision_of_scrNS_ne_zero (hf : p.featAA32EL1 = true) (hel : c.el = .el3) (hns : c.scrNS ≠ 0#1) :
    accessDecision p c dir = .access .ifsrNS :=
  accessDecision_eq_access_iff.mpr ⟨hf, .inr (.inr ⟨hel, .inr ⟨bit_eq_one_of_ne_zero hns, rfl⟩⟩)⟩

/-- Below EL3 an access does not reach `IFSR_S` (60_exceptions.md rule R84). -/
theorem ne_ifsrS_of_reaches (hel : c.el ≠ .el3) (h : Reaches p c dir n) : n ≠ .ifsrS := by
  have hbelow : BelowEL3Reaches p c n → n ≠ .ifsrS := by
    rintro (⟨_, rfl⟩ | ⟨_, rfl⟩) <;> decide
  obtain ⟨_, ⟨_, _, _, hn⟩ | ⟨_, hn⟩ | ⟨hel3, _⟩⟩ := h
  · exact hbelow hn
  · exact hbelow hn
  · exact absurd hel3 hel

/-- An access reaches one instance. -/
theorem reaches_unique {m : InstanceName} (hn : Reaches p c dir n) (hm : Reaches p c dir m) : n = m := by
  cases (accessDecision_eq_access_iff.mpr hn).symm.trans (accessDecision_eq_access_iff.mpr hm)
  rfl

end Levels

/-- Settles O23: row by row of the table. -/
theorem eachLevelMayDoWhatTheTableSays : Obligations.EachLevelMayDoWhatTheTableSays := by
  refine fun p c dir => ⟨fun hf => ?_, fun _ hel => ?_, fun hf hel h64 h32 n => ?_, fun hf hel htrap n hd => ?_,
    fun hf hel n => ?_, accessDecision_of_scrNS_zero, accessDecision_of_scrNS_ne_zero⟩
  · exact accessDecision_eq_undefined_iff.mpr (.inl hf)
  · exact accessDecision_eq_undefined_iff.mpr (.inr hel)
  · rw [accessDecision_eq_access_iff, reaches_iff_at_el1 hf hel]
    exact ⟨fun ⟨_, _, hn⟩ => hn, fun hn => ⟨h64, h32, hn⟩⟩
  · obtain ⟨h64, h32, _⟩ := (reaches_iff_at_el1 hf hel).mp (accessDecision_eq_access_iff.mp hd)
    exact htrap.elim h64 h32
  · rw [accessDecision_eq_access_iff, reaches_iff_at_el2 hf hel]

/-! ### What each EL2 control intercepts -/

section Controls
variable {p : Params} {c c' : Context} {dir : Direction}

/-- The controls of an EL2 using AArch64 are without effect where EL2 is not enabled, does not implement AArch64 or is
using AArch32 (60_exceptions.md rule R85). -/
theorem trap64_congr_of_without_effect (hen : c'.el2Enabled = c.el2Enabled)
    (hst : c'.el2UsingAArch32 = c.el2UsingAArch32)
    (h : c.el2Enabled = false ∨ p.featAA64EL2 = false ∨ c.el2UsingAArch32 = true) :
    trap64 p c' dir = trap64 p c dir := by
  unfold trap64
  rw [hen, hst]
  rcases h with h | h | h <;> simp [h]

/-- The controls of an EL2 using AArch32 are without effect where EL2 is not enabled, does not implement AArch32 or is
using AArch64 (60_exceptions.md rule R85). -/
theorem trap32_congr_of_without_effect (hen : c'.el2Enabled = c.el2Enabled)
    (hst : c'.el2UsingAArch32 = c.el2UsingAArch32)
    (h : c.el2Enabled = false ∨ p.featAA32EL2 = false ∨ c.el2UsingAArch32 = false) :
    trap32 p c' dir = trap32 p c dir := by
  unfold trap32
  rw [hen, hst]
  rcases h with h | h | h <;> simp [h]

/-- The EL2 controls enter a decision at EL1 alone, and there through the two trap conditions (40_sysreg_access.md rule
R64). -/
theorem accessDecision_congr (hel : c'.el = c.el) (h3 : c'.el3UsingAArch32 = c.el3UsingAArch32)
    (hns : c'.scrNS = c.scrNS)
    (htrap : c.el = .el1 → trap64 p c' dir = trap64 p c dir ∧ trap32 p c' dir = trap32 p c dir) :
    accessDecision p c' dir = accessDecision p c dir := by
  rw [accessDecision_eq_groupedDecision, accessDecision_eq_groupedDecision]
  unfold groupedDecision el3is32
  rw [hel, h3, hns]
  cases hlevel : c.el with
  | el1 =>
    obtain ⟨h64, h32⟩ := htrap hlevel
    rw [h64, h32]
  | _ => rfl

end Controls

/-- Settles O24: a control that intercepts meets the condition of its trap; one without effect leaves both trap
conditions as they were. -/
theorem el2ControlsInterceptWhatTheTableSays : Obligations.EL2ControlsInterceptWhatTheTableSays := by
  intro p c dir b1 b2 b3 b4 b5 b6
  refine ⟨fun hf hel hen h64 hst => ?_, fun hf hel hen h32 hst => ?_, fun hoff => ?_, fun hoff => ?_, fun hoff => ?_,
    ?_, ?_⟩
  · have htrap : ∀ d, (c.hstrEL2T5 = 1#1 ∨ vmControl64 c d = 1#1) →
        accessDecision p c d = .exception (.trapToEL2AArch64 0x03#8) := fun d hcontrol =>
      accessDecision_eq_trap64_iff.mpr ⟨rfl, hf, hel, trappedToAArch64_iff.mpr ⟨hen, h64, hst, hcontrol⟩⟩
    exact ⟨fun h => htrap dir (.inl h), fun h => htrap .read (.inr h), fun h => htrap .write (.inr h)⟩
  · have htrap : ∀ d, (c.hstrT5 = 1#1 ∨ vmControl32 c d = 1#1) →
        accessDecision p c d = .exception (.hypTrap 0x03#8) := fun d hcontrol =>
      accessDecision_eq_hypTrap_iff.mpr ⟨rfl, hf, hel, trappedToHyp_iff.mpr ⟨hen, h32, hst, hcontrol⟩⟩
    exact ⟨fun h => htrap dir (.inl h), fun h => htrap .read (.inr h), fun h => htrap .write (.inr h)⟩
  · refine accessDecision_congr rfl rfl rfl fun hel => ?_
    have hdisabled := hoff.resolve_right (not_not_intro hel)
    exact ⟨trap64_congr_of_without_effect rfl rfl (.inl hdisabled),
      trap32_congr_of_without_effect rfl rfl (.inl hdisabled)⟩
  · exact accessDecision_congr rfl rfl rfl fun _ => ⟨trap64_congr_of_without_effect rfl rfl (.inr hoff), rfl⟩
  · exact accessDecision_congr rfl rfl rfl fun _ => ⟨rfl, trap32_congr_of_without_effect rfl rfl (.inr hoff)⟩
  · exact accessDecision_congr rfl rfl rfl fun _ => ⟨rfl, rfl⟩
  · exact accessDecision_congr rfl rfl rfl fun _ => ⟨rfl, rfl⟩

/-! ### Accesses that do not reach an instance -/

section Unreached
variable {s : State} {n m : InstanceName} (v : Word)

/-- Writes to two separate instances may be made in either order (10_state.md rule R14). -/
theorem bankSet_comm {α : Type} (b : Banked α) (hnm : n ≠ m) (x y : α) :
    bankSet (bankSet b m y) n x = bankSet (bankSet b n x) m y := by
  refine banked_ext fun k => ?_
  simp only [bankGet_bankSet]
  by_cases hk : k = n
  · subst hk; simp [hnm]
  · simp [hk]

/-- The effect of a granted access is the same beside any content of another instance. -/
theorem accessEffect_cellWrite_other (dir : Direction) (k : Fin 15) (hnm : n ≠ m) :
    accessEffect dir k n (cellWrite m v s) = cellWrite m v (accessEffect dir k n s) := by
  cases dir with
  | read =>
    simp only [accessEffect, cellRead_cellWrite_other v s hnm]
    rfl
  | write =>
    simp only [accessEffect, softwareWrite, cellWrite, bankSet_comm s.cells hnm]
    rfl

/-- An access does the same, and leaves the same beside it, whatever an instance holds that it does not reach
(60_exceptions.md rule R84). -/
theorem exec_cellWrite_unreached (i : Instr) (hm : ∀ n, Reaches s.params s.ctx (direction i) n → n ≠ m) :
    AnswersAlike (fun t t' => t' = cellWrite m v t) (exec i s) (exec i (cellWrite m v s)) := by
  by_cases h15 : rtField i = 15#4
  · rw [exec_of_rtField_fifteen h15, exec_of_rtField_fifteen h15]
    exact .refused _
  · cases hd : accessDecision s.params s.ctx (direction i) with
    | exception e =>
      rw [exec_of_exception h15 hd, exec_of_exception (s := cellWrite m v s) h15 hd, exceptionUnderCondition,
        exceptionUnderCondition, cellWrite_ctx]
      cases s.ctx.condPassed with
      | false => exact .refused _
      | true => exact .next rfl
    | access n =>
      cases he : instanceExists s.params n with
      | false =>
        rw [exec_of_absent h15 hd he, exec_of_absent (s := cellWrite m v s) h15 hd he]
        exact .refused _
      | true =>
        have hlt : (rtField i).toNat < 15 := by bv_omega
        have hnm := hm n (accessDecision_eq_access_iff.mp hd)
        rw [exec_of_present hlt hd he, exec_of_present (s := cellWrite m v s) hlt hd he, okUnderCondition,
          okUnderCondition, cellWrite_ctx, accessEffect_cellWrite_other v _ _ hnm]
        cases s.ctx.condPassed <;> exact .next rfl

end Unreached

/-- Settles O25: below EL3 no access reaches `IFSR_S`, at EL3 `SCR.NS` selects, and a write reaches one instance. -/
theorem ifsrSecureIsOutOfReachBelowEL3 : Obligations.IFSRSecureIsOutOfReachBelowEL3 := by
  refine ⟨fun i s v hel => ?_, fun p c dir hf hel => ?_, fun p c dir n m hel hn hm => ?_,
    fun i s t n m _ h hne hmn => ?_⟩
  · have halike := exec_cellWrite_unreached v i fun n hr => ne_ifsrS_of_reaches hel hr
    refine ⟨fun t h => ⟨?_, ?_⟩, fun r h => (halike.refused_iff r).mp h⟩
    · by_contra hne
      obtain ⟨_, hr, _⟩ := exec_changes_cell h hne
      exact ne_ifsrS_of_reaches hel hr rfl
    · rw [h] at halike
      obtain ⟨t', ht', rfl⟩ := halike.exists_next
      exact ht'
  · exact ⟨accessDecision_of_scrNS_zero hf hel, accessDecision_of_scrNS_ne_zero hf hel⟩
  · rw [accessDecision_eq_access_iff] at hn hm
    exact ⟨reaches_unique hn hm, ne_ifsrS_of_reaches hel hn⟩
  · by_contra hmne
    obtain ⟨_, hrn, _⟩ := exec_changes_cell h hne
    obtain ⟨_, hrm, _⟩ := exec_changes_cell h hmne
    exact hmn (reaches_unique hrm hrn)

/-! ### Recordings that complete or are refused -/

section Answers
variable {r : FaultReport} {s : State}

theorem recordInstructionFault_of_featureAbsent (hf : s.params.featAA32EL1 = false) :
    recordInstructionFault r s = .refused .registerAbsent := by
  simp [recordInstructionFault, hf]

theorem recordInstructionFault_of_absent (hf : s.params.featAA32EL1 = true)
    (he : instanceExists s.params r.target = false) : recordInstructionFault r s = .refused .noSuchInstance := by
  simp [recordInstructionFault, hf, he]

theorem recordInstructionFault_of_noCode (he : instanceExists s.params r.target = true)
    (hcode : NoCode s.params r.eae r.fault) : recordInstructionFault r s = .refused .noCodeInLayout := by
  have hnone : recordedValue s.params r (recordedExt r s).1 = none := recordedValue_eq_none_iff.mpr hcode
  simp [recordInstructionFault, present_of_instanceExists he, he, hnone]

/-- With its target present and a code for the fault, a recording changes the target and the count of draws at most
(60_exceptions.md rules R70, R76). -/
theorem recordInstructionFault_of_code (he : instanceExists s.params r.target = true)
    (hcode : ¬NoCode s.params r.eae r.fault) :
    ∃ v k, recordInstructionFault r s = .next { s with cells := bankSet s.cells r.target v, draws := k } := by
  rw [← recordedValue_eq_none_iff (ext := (recordedExt r s).1)] at hcode
  obtain ⟨v, hv⟩ := Option.ne_none_iff_exists'.mp hcode
  have hcompletes := recordInstructionFault_of_value he hv
  obtain ⟨_, _, _, w, k, ht, _⟩ := recordInstructionFault_next hcompletes
  exact ⟨w, k, hcompletes.trans (congrArg _ ht)⟩

end Answers

/-- Settles O34: the step is the recording, and the recording is answered by the first thing missing, if any. -/
theorem recordingCompletesOrIsRefusedByName : Obligations.RecordingCompletesOrIsRefusedByName := by
  refine ⟨fun r s rest hi => step_cons hi, fun r s => ?_⟩
  exact ⟨recordInstructionFault_of_featureAbsent, recordInstructionFault_of_absent, recordInstructionFault_of_noCode,
    recordInstructionFault_of_code⟩

/-- Settles O35: of the reasons for which a recording is refused, this one alone is the want of a code. -/
theorem faultsWithoutACodeAreRefused : Obligations.FaultsWithoutACodeAreRefused := by
  refine fun r s he => ⟨fun h => ?_, recordInstructionFault_of_noCode he⟩
  rcases recordInstructionFault_refused h with ⟨hwhy, _⟩ | ⟨hwhy, _⟩ | ⟨_, hnone⟩
  · cases hwhy
  · cases hwhy
  · exact recordedValue_eq_none_iff.mp hnone

/-! ### What a recording leaves in its target -/

section Recorded
variable {r : FaultReport} {s t : State}

/-- In the short layout a synchronised recording leaves the value composed of the fault's FS (60_exceptions.md rules
R70, R71). -/
theorem cellRead_recorded_short (hs : Synchronised r.target s) (h : recordInstructionFault r s = .next t)
    (heae : r.eae = 0#1) :
    ∃ code, shortCode s.params r.fault = some code ∧
      cellRead r.target t = composeShort (fnvBit r.fault r.ifarValid) (recordedExt r s).1 code := by
  obtain ⟨v, hv, hcell, _⟩ := recordInstructionFault_synchronised hs h
  rw [recordedValue, if_pos heae, Option.map_eq_some_iff] at hv
  obtain ⟨code, hcode, rfl⟩ := hv
  exact ⟨code, hcode, hcell⟩

/-- In the long layout a synchronised recording leaves the value composed of the fault's STATUS (60_exceptions.md rules
R70, R71). -/
theorem cellRead_recorded_long (hs : Synchronised r.target s) (h : recordInstructionFault r s = .next t)
    (heae : r.eae = 1#1) :
    ∃ code, longCode s.params r.fault = some code ∧
      cellRead r.target t = composeLong (fnvBit r.fault r.ifarValid) (recordedExt r s).1 code := by
  obtain ⟨v, hv, hcell, _⟩ := recordInstructionFault_synchronised hs h
  rw [recordedValue, if_neg (heae ▸ by decide), Option.map_eq_some_iff] at hv
  obtain ⟨code, hcode, rfl⟩ := hv
  exact ⟨code, hcode, hcell⟩

/-- The fields that the two layouts have in common (60_exceptions.md rules R73 to R75). -/
theorem cellRead_recorded_fields (hs : Synchronised r.target s) (h : recordInstructionFault r s = .next t) :
    fieldFnV (cellRead r.target t) = fnvBit r.fault r.ifarValid ∧
      fieldExT (cellRead r.target t) = (recordedExt r s).1 ∧ fieldLPAE (cellRead r.target t) = r.eae := by
  by_cases heae : r.eae = 0#1
  · obtain ⟨code, _, hcell⟩ := cellRead_recorded_short hs h heae
    obtain ⟨hfnv, hext, hlpae, _⟩ := composeShort_fields (fnvBit r.fault r.ifarValid) (recordedExt r s).1 code
    rw [hcell]
    exact ⟨hfnv, hext, hlpae.trans heae.symm⟩
  · have heae := bit_eq_one_of_ne_zero heae
    obtain ⟨code, _, hcell⟩ := cellRead_recorded_long hs h heae
    obtain ⟨hfnv, hext, hlpae, _⟩ := composeLong_fields (fnvBit r.fault r.ifarValid) (recordedExt r s).1 code
    rw [hcell]
    exact ⟨hfnv, hext, hlpae.trans heae.symm⟩

/-- Only a fault the implementation can raise is recorded (60_exceptions.md rule R72). -/
theorem raisable_of_recordInstructionFault (h : recordInstructionFault r s = .next t) :
    raisable s.params r.fault = true := by
  obtain ⟨_, v, hv, _⟩ := recordInstructionFault_next h
  rcases recordedValue_eq_some hv with ⟨_, code, hcode, _⟩ | ⟨_, code, hcode, _⟩
  · exact (shortCode_eq_some_iff.mp hcode).1
  · exact (longCode_eq_some_iff.mp hcode).1

/-- The row of a kind in the table of 10_state.md rule R31. -/
theorem row_mem_kindRows (k : FaultKind) : (k, shortRow k, longRow k) ∈ kindRows := by
  obtain ⟨⟨k', fs, st⟩, hmem, rfl⟩ := List.mem_map.mp (mem_kindRows k)
  obtain ⟨hshort, hlong⟩ := kindRows_codes _ hmem
  rw [hshort, hlong]
  exact hmem

/-- The FS that a recording writes stands in the row of the fault. -/
theorem recorded_fs_mem_kindRows (hs : Synchronised r.target s) (h : recordInstructionFault r s = .next t)
    (heae : r.eae = 0#1) : ∃ st, (r.fault, some (fieldFS (cellRead r.target t)), st) ∈ kindRows := by
  obtain ⟨code, hcode, hcell⟩ := cellRead_recorded_short hs h heae
  obtain ⟨_, _, _, hfs, _⟩ := composeShort_fields (fnvBit r.fault r.ifarValid) (recordedExt r s).1 code
  rw [shortCode_eq, if_pos (raisable_of_recordInstructionFault h)] at hcode
  rw [hcell, hfs, ← hcode]
  exact ⟨_, row_mem_kindRows r.fault⟩

/-- The STATUS that a recording writes stands in the row of the fault. -/
theorem recorded_status_mem_kindRows (hs : Synchronised r.target s) (h : recordInstructionFault r s = .next t)
    (heae : r.eae = 1#1) : ∃ fs, (r.fault, fs, some (fieldSTATUS (cellRead r.target t))) ∈ kindRows := by
  obtain ⟨code, hcode, hcell⟩ := cellRead_recorded_long hs h heae
  obtain ⟨_, _, _, hst, _⟩ := composeLong_fields (fnvBit r.fault r.ifarValid) (recordedExt r s).1 code
  rw [longCode_eq, if_pos (raisable_of_recordInstructionFault h)] at hcode
  rw [hcell, hst, ← hcode]
  exact ⟨_, row_mem_kindRows r.fault⟩

end Recorded

/-- Settles O36: the code is that of the fault's row, the fault is one that can be raised, and a recorded value decodes
to its fault. -/
theorem theRecordedCodeIsTheTabulatedOne : Obligations.TheRecordedCodeIsTheTabulatedOne := by
  intro r s t hs h
  obtain ⟨hras, hlock⟩ := raisable_iff.mp (raisable_of_recordInstructionFault h)
  obtain ⟨hshort, hlong⟩ := aRecordedValueDecodesToItsFault r s t hs h
  refine ⟨recorded_fs_mem_kindRows hs h, recorded_status_mem_kindRows hs h, hras, hlock, fun heae hres => ?_,
    fun heae hres => ?_⟩
  · cases hres.symm.trans (hshort heae).1
  · cases hres.symm.trans (hlong heae).1

/-- Settles O37: FnV is the composed one in either layout. -/
theorem theRecordedFnVSaysWhetherIFARIsValid : Obligations.TheRecordedFnVSaysWhetherIFARIsValid := by
  intro r s t hs h
  obtain ⟨hfnv, _⟩ := cellRead_recorded_fields hs h
  exact hfnv

/-- Settles O39: LPAE is the composed one of the layout that `eae` selects. -/
theorem theRecordedLPAEIsTheLayout : Obligations.TheRecordedLPAEIsTheLayout := by
  intro r s t hs h
  obtain ⟨_, _, hlpae⟩ := cellRead_recorded_fields hs h
  exact hlpae

/-! ### The ExT bit -/

section ExT
variable {r : FaultReport} {s : State}

theorem isExternalAbort_iff {k : FaultKind} :
    isExternalAbort k = true ↔ k = .syncExternal ∨ ∃ l, k = .syncExternalTTW l := by
  cases k <;> simp [isExternalAbort]

/-- A parity or ECC kind is no External abort by name (60_exceptions.md rule R74). -/
theorem isExternalAbort_of_isParity {k : FaultKind} (h : isParity k = true) : isExternalAbort k = false := by
  cases k with
  | syncExternal | syncExternalTTW l => cases h
  | _ => rfl

theorem recordedExt_of_unclassified (hc : s.params.extClassified = false) : recordedExt r s = (0#1, s) := by
  simp [recordedExt, hc]

theorem recordedExt_of_external (hc : s.params.extClassified = true) (hx : isExternalAbort r.fault = true) :
    recordedExt r s = (Config.extClass r.abortInfo, s) := by
  simp [recordedExt, hc, hx]

theorem recordedExt_of_parity (hc : s.params.extClassified = true) (hp : isParity r.fault = true) :
    recordedExt r s = drawBit s := by
  simp [recordedExt, hc, hp, isExternalAbort_of_isParity hp]

theorem recordedExt_of_other (hc : s.params.extClassified = true) (hx : isExternalAbort r.fault = false)
    (hp : isParity r.fault = false) : recordedExt r s = (0#1, s) := by
  simp [recordedExt, hc, hx, hp]

/-- Where ExT is no draw it is the same in every state of the implementation (60_exceptions.md rule R74). -/
theorem recordedExt_fst_congr {t : State} (hparams : t.params = s.params)
    (hnodraw : s.params.extClassified = false ∨ ¬ParityKind r.fault) :
    (recordedExt r t).1 = (recordedExt r s).1 := by
  unfold recordedExt
  rw [hparams]
  rcases hnodraw with hc | hp
  · simp [hc]
  · rw [parityKind_iff, Bool.not_eq_true] at hp
    cases s.params.extClassified <;> cases isExternalAbort r.fault <;> simp [hp]

/-- The ExT bit of a synchronised recording and the count of draws after it are those of `ExTBit`. -/
theorem recorded_ext_and_draws {t : State} {b : Bit} {u : State} (hs : Synchronised r.target s)
    (h : recordInstructionFault r s = .next t) (hext : recordedExt r s = (b, u)) :
    fieldExT (cellRead r.target t) = b ∧ t.draws = u.draws := by
  obtain ⟨_, _, _, ht⟩ := recordInstructionFault_synchronised hs h
  obtain ⟨_, hbit, _⟩ := cellRead_recorded_fields hs h
  rw [hext] at hbit ht
  exact ⟨hbit, (congrArg State.draws ht :)⟩

end ExT

/-- Settles O38: by the four cases of `ExTBit`. -/
theorem theRecordedExTIsTheClassOfTheAbort : Obligations.TheRecordedExTIsTheClassOfTheAbort := by
  intro r s t hs h
  simp only [← isExternalAbort_iff, parityKind_iff, Bool.not_eq_true]
  exact ⟨fun hc => recorded_ext_and_draws hs h (recordedExt_of_unclassified hc),
    fun hc hx => recorded_ext_and_draws hs h (recordedExt_of_external hc hx),
    fun hc hp => recorded_ext_and_draws hs h (recordedExt_of_parity hc hp),
    fun hc hx hp => recorded_ext_and_draws hs h (recordedExt_of_other hc hx hp)⟩

/-! ### The whole register is replaced -/

section Replaced
variable (r : FaultReport) (s : State) (n : InstanceName) (u : Word)

theorem recordedExt_cellWrite :
    recordedExt r (cellWrite n u s) = ((recordedExt r s).1, cellWrite n u (recordedExt r s).2) := by
  obtain ⟨k, hk⟩ := recordedExt_state r s
  rw [cellWrite, recordedExt_cells, hk]
  rfl

/-- What is stored replaces what the instance held (60_exceptions.md rule R76). -/
theorem storeRecorded_cellWrite (v : Word) : storeRecorded n v (cellWrite n u s) = storeRecorded n v s := by
  have hleft : valueLeft n v (cellWrite n u s) = ((valueLeft n v s).1, cellWrite n u (valueLeft n v s).2) := by
    rw [cellWrite, valueLeft_cells, ← valueLeft_snd_cells s n v]
    rfl
  rw [storeRecorded, hleft, cellWrite_cellWrite, storeRecorded]

/-- Nothing of the previous content survives a recording (60_exceptions.md rule R76). -/
theorem recordInstructionFault_cellWrite :
    recordInstructionFault r (cellWrite r.target u s) = recordInstructionFault r s := by
  simp only [recordInstructionFault, cellWrite_params, recordedExt_cellWrite, storeRecorded_cellWrite]

end Replaced

/-- Settles O40: the store overwrites the target alone, with a composed value of the layout. -/
theorem aRecordingReplacesTheWholeRegister : Obligations.ARecordingReplacesTheWholeRegister := by
  refine fun r s => ⟨recordInstructionFault_cellWrite r s, fun t n h hn => cellRead_of_recording_elsewhere h hn,
    fun t hs h => ⟨fun heae => ?_, fun heae => ?_, fun ha => ?_⟩⟩
  · obtain ⟨hshort, _⟩ := aRecordedValueDecodesToItsFault r s t hs h
    obtain ⟨_, _, hres0⟩ := hshort heae
    exact hres0
  · obtain ⟨_, hlong⟩ := aRecordedValueDecodesToItsFault r s t hs h
    obtain ⟨_, _, hres0⟩ := hlong heae
    exact hres0
  · obtain ⟨v, hv, hcell, _⟩ := recordInstructionFault_synchronised hs h
    rw [hcell]
    exact withinWritable_recordedValue ha hv

/-- A recording leaves synchronised what was, since it forgets and remembers no software write (20_memory.md rule
R45). -/
theorem synchronised_of_recordInstructionFault {r : FaultReport} {s t : State} {n : InstanceName}
    (h : recordInstructionFault r s = .next t) (hs : Synchronised n s) : Synchronised n t := by
  obtain ⟨_, _, _, w, k, rfl, _⟩ := recordInstructionFault_next h
  exact hs

/-- Settles O43: the second recording composes the same value after the first as without it. -/
theorem theLastRecordedFaultStands : Obligations.TheLastRecordedFaultStands := by
  intro r1 r2 s t1 t2 _ hs hnodraw h1 h2
  have hparams : t1.params = s.params := perform_next_params (r := .recordFault r1) h1
  obtain ⟨he, _⟩ := recordInstructionFault_next h2
  obtain ⟨v, hv, hcell2, _⟩ :=
    recordInstructionFault_synchronised (synchronised_of_recordInstructionFault h1 hs) h2
  rw [recordedExt_fst_congr hparams hnodraw, hparams] at hv
  rw [hparams] at he
  have halone := recordInstructionFault_of_value he hv
  obtain ⟨v', hv', hcell, _⟩ := recordInstructionFault_synchronised hs halone
  cases hv.symm.trans hv'
  exact ⟨_, halone, hcell2.trans hcell.symm⟩

end Sys2Proof.Proofs
end

section
/-! PROOFS. 70_reset_and_hazards.md: the draws a reset makes, one for each instance that exists, and the machine after
reset. -/

namespace Sys2Proof.Proofs

open Sys2Proof.Machine Sys2Proof.Safety Sys2Proof.Laws

/-! ### The reset of one instance -/

section OneInstance
variable {n m : InstanceName} (s : State)

/-- The reset of one instance touches the cells and the count of draws only. -/
theorem resetCell_frame (n : InstanceName) :
    resetCell n s = { s with cells := (resetCell n s).cells, draws := (resetCell n s).draws } := by
  rcases resetCell_cases n s with ⟨_, h⟩ | ⟨_, h⟩
  · rw [h]
  · rw [h]; rfl

theorem draws_le_resetCell (n : InstanceName) : s.draws ≤ (resetCell n s).draws := by
  rcases resetCell_cases n s with ⟨_, h⟩ | ⟨_, h⟩
  · rw [h]
  · rw [h]; exact Nat.le_succ _

variable {s}

theorem resetCell_of_exists (he : instanceExists s.params n = true) :
    resetCell n s = { cellWrite n (Config.draw32 s.draws &&& s.params.writable) s with draws := s.draws + 1 } := by
  rcases resetCell_cases n s with ⟨habsent, _⟩ | ⟨_, h⟩
  · cases habsent.symm.trans he
  · exact h

theorem draws_lt_resetCell (he : instanceExists s.params n = true) : s.draws < (resetCell n s).draws := by
  rw [resetCell_of_exists he]
  exact Nat.lt_succ_self _

theorem cellRead_resetCell_same (he : instanceExists s.params n = true) :
    cellRead n (resetCell n s) = Config.draw32 s.draws &&& s.params.writable := by
  rw [resetCell_of_exists he]
  exact cellRead_cellWrite_same n _ s

theorem cellRead_resetCell_other (hm : m ≠ n) : cellRead m (resetCell n s) = cellRead m s := by
  rcases resetCell_cases n s with ⟨_, h⟩ | ⟨_, h⟩
  · rw [h]
  · rw [h]; exact cellRead_cellWrite_other _ s hm

end OneInstance

/-! ### The reset of the instances one after the other -/

/-- What a reset has done to `s` when it has been at `names` and stands at `t`: each of them that exists holds its own
draw, numbered by `d`, that was not made before the reset (70_reset_and_hazards.md rule R90). -/
structure ResetSoFar (d : InstanceName → Nat) (names : List InstanceName) (s t : State) : Prop where
  draws_le : s.draws ≤ t.draws
  drawn : ∀ n ∈ names, instanceExists s.params n = true →
    s.draws ≤ d n ∧ d n < t.draws ∧ cellRead n t = Config.draw32 (d n) &&& s.params.writable
  distinct : ∀ n ∈ names, ∀ m ∈ names, instanceExists s.params n = true → instanceExists s.params m = true →
    n ≠ m → d n ≠ d m
  frame : t = { s with cells := t.cells, draws := t.draws }

theorem resetSoFar_start (d : InstanceName → Nat) (s : State) : ResetSoFar d [] s s where
  draws_le := le_rfl
  drawn := by simp
  distinct := by simp
  frame := rfl

section Continue
variable {d : InstanceName → Nat} {names : List InstanceName} {s t : State} {n : InstanceName}

theorem ResetSoFar.params_eq (h : ResetSoFar d names s t) : t.params = s.params := by rw [h.frame]

/-- The next instance takes the draw that the count of draws stands at, which none before it has taken. -/
theorem ResetSoFar.resetCell (h : ResetSoFar d names s t) (hn : n ∉ names) :
    ResetSoFar (Function.update d n t.draws) (n :: names) s (resetCell n t) where
  draws_le := h.draws_le.trans (draws_le_resetCell t n)
  drawn m hm he := by
    rcases List.mem_cons.mp hm with rfl | hm
    · rw [← h.params_eq] at he ⊢
      rw [Function.update_self]
      exact ⟨h.draws_le, draws_lt_resetCell he, cellRead_resetCell_same he⟩
    · have hne : m ≠ n := ne_of_mem_of_not_mem hm hn
      obtain ⟨hfresh, hmade, hcell⟩ := h.drawn m hm he
      rw [Function.update_of_ne hne, cellRead_resetCell_other hne]
      exact ⟨hfresh, hmade.trans_le (draws_le_resetCell t n), hcell⟩
  distinct := by
    have hnew : ∀ m ∈ names, instanceExists s.params m = true →
        Function.update d n t.draws m < Function.update d n t.draws n := fun m hm he => by
      rw [Function.update_self, Function.update_of_ne (ne_of_mem_of_not_mem hm hn)]
      exact (h.drawn m hm he).2.1
    intro a ha b hb hea heb hab
    rcases List.mem_cons.mp ha with rfl | holda <;> rcases List.mem_cons.mp hb with rfl | holdb
    · exact absurd rfl hab
    · exact (hnew b holdb heb).ne'
    · exact (hnew a holda hea).ne
    · rw [Function.update_of_ne (ne_of_mem_of_not_mem holda hn), Function.update_of_ne (ne_of_mem_of_not_mem holdb hn)]
      exact h.distinct a holda b holdb hea heb hab
  frame := by rw [resetCell_frame t n, h.frame]

end Continue

/-- A Warm reset goes through all three names. -/
theorem resetSoFar_warmReset (s : State) :
    ∃ d, ResetSoFar d [.ifsrNS, .ifsrS, .ifsr] s (warmReset s) :=
  ⟨_, (((resetSoFar_start (fun _ => 0) s).resetCell (n := .ifsr) (by decide)).resetCell (n := .ifsrS)
    (by decide)).resetCell (n := .ifsrNS) (by decide)⟩

/-! ### The statements -/

/-- Settles O50: every name is among those a reset goes through. -/
theorem aResetDrawsEachExistingInstance : Obligations.AResetDrawsEachExistingInstance := by
  intro kind s
  have hall : ∀ n : InstanceName, n ∈ [InstanceName.ifsrNS, .ifsrS, .ifsr] := fun n => by cases n <;> decide
  obtain ⟨d, h⟩ := resetSoFar_warmReset s
  rw [performReset_eq]
  exact ⟨d, fun n => h.drawn n (hall n), fun n m => h.distinct n (hall n) m (hall m),
    fun n => cellRead_warmReset_of_absent, h.frame⟩

/-- The machine after reset is what a Warm reset leaves where no draw has been made (70_reset_and_hazards.md rules R90,
R92). -/
theorem warmReset_of_no_draws : warmReset { State.reset with draws := 0 } = State.reset := rfl

/-- Settles O51: the machine after reset comes from a reset, and its parameters make every instance exist. -/
theorem afterResetEveryInstanceHoldsADraw : Obligations.AfterResetEveryInstanceHoldsADraw := by
  have hexists : ∀ n, instanceExists State.reset.params n = true := fun n => by cases n <;> rfl
  obtain ⟨d, hdrawn, hdistinct, _⟩ := aResetDrawsEachExistingInstance .warm { State.reset with draws := 0 }
  rw [performReset_eq, warmReset_of_no_draws] at hdrawn
  refine ⟨hexists, ⟨d, fun n m hd => ?_, fun n => ?_⟩, rfl, rfl⟩
  · by_contra hne
    exact hdistinct n m (hexists n) (hexists m) hne hd
  · obtain ⟨_, hmade, hcell⟩ := hdrawn n (hexists n)
    exact ⟨hmade, hcell⟩

end Sys2Proof.Proofs
end
